-- ==== Sys2Proof/Word.lean ====
section
/-! DEFINITION. The word types of spec/00_scope.md rule R10. -/

namespace Sys2Proof

/-- `u8` (R10): a byte of the wire, and the 8-bit registers. -/
abbrev Byte := BitVec 8

/-- `u16` (R10). -/
abbrev U16 := BitVec 16

/-- `u32` (R10). -/
abbrev U32 := BitVec 32

/-- `i64` (R10), two's complement: only `seg_acc` (R42) has this width. -/
abbrev I64 := BitVec 64

end Sys2Proof
end

