-- ==== Sys2Proof/Config.lean ====
section
/-! DEFINITION. What an implementation fixes: the configuration record, the parameters of
spec/00_scope.md rule R8, and the values the spec leaves open, as constants with no body. -/

namespace Sys2Proof.Config

/-- The configuration register set (R21), also the shape of `DEFAULT_CONFIG` (R8). -/
structure ConfigRegs where
  /-- `out_pin` (R22). -/
  outPin : Byte
  /-- `sense_pin` (R23). -/
  sensePin : Byte
  /-- `pwm_freq`, Hz (R24). -/
  pwmFreq : U32
  /-- `pwm_res`, bits (R25). -/
  pwmRes : Byte
  /-- `sense_rate`, Hz (R26). -/
  senseRate : U32
  /-- `sense_res`, bits (R27). -/
  senseRes : Byte
deriving DecidableEq, Repr

/-- The parameters of R8 that the spec admits to vary (92_eei_decisions.md, OPEN parameters). -/
structure Params where
  /-- `RING_N`. -/
  ringN : Nat
  /-- `Q_SLOTS`. -/
  qSlots : Nat
  /-- `MAX_FRAME`. -/
  maxFrame : Nat
  /-- `CRC8_POLY`. -/
  crcPoly : Byte
  /-- `CRC8_INIT`. -/
  crcInit : Byte
  /-- `CRC8_XOROUT`. -/
  crcXorOut : Byte
  /-- `TELEM_MAGIC`. -/
  telemMagic : Byte
  /-- `TYPE_SNAPSHOT`. -/
  typeSnapshot : Byte
  /-- `TYPE_TIMESYNC`. -/
  typeTimesync : Byte
  /-- `TIMESYNC_INTERVAL_US`. -/
  timesyncIntervalUs : Nat
  /-- `PWM_FREQ_MIN`. -/
  pwmFreqMin : Nat
  /-- `PWM_FREQ_MAX`. -/
  pwmFreqMax : Nat
  /-- `FW_VERSION`. -/
  fwVersion : U16
  /-- `SETTINGS_TAG`. -/
  settingsTag : U16
  /-- `DEFAULT_CONFIG`. -/
  defaultConfig : ConfigRegs
  /-- `SEG_DEFAULT_DURATION_US`. -/
  segDefaultDurationUs : U32
  /-- `SEG_FALLTHROUGH_SAVE`. -/
  segFallthroughSave : Bool
deriving DecidableEq, Repr

/-- `RES_MIN` (R8). -/
def resMin : Nat := 1
/-- `RES_MAX` (R8). -/
def resMax : Nat := 16
/-- `RATE_MIN` (R8). -/
def rateMin : Nat := 1
/-- `RATE_MAX` (R8). -/
def rateMax : Nat := 1000000

/-! ## OPEN parameters (R8, D29, D30, D31): constants with no body (log 2) -/

/-- `FW_VERSION` is OPEN (D29). -/
opaque fwVersion : U16

/-- `SETTINGS_TAG` is OPEN (D31). -/
opaque settingsTag : U16

/-- `DEFAULT_CONFIG.out_pin` is OPEN (D30). -/
opaque defaultOutPin : Byte

/-- `DEFAULT_CONFIG.sense_pin` is OPEN (D30). -/
opaque defaultSensePin : Byte

/-- `DEFAULT_CONFIG.pwm_freq - 1000` is OPEN; the type keeps the field in `[1000, 100000]` (R28). -/
opaque defaultPwmFreqOffset : Fin 99001

/-- `DEFAULT_CONFIG.pwm_res - 1` is OPEN; the type keeps the field in 1..16 (R28). -/
opaque defaultPwmResOffset : Fin 16

/-- `DEFAULT_CONFIG.sense_rate - 1` is OPEN; the type keeps the field in 1..1000000 (R28). -/
opaque defaultSenseRateOffset : Fin 1000000

/-- `DEFAULT_CONFIG.sense_res - 1` is OPEN; the type keeps the field in 1..16 (R28). -/
opaque defaultSenseResOffset : Fin 16

/-- `DEFAULT_CONFIG` (R8): every legal record is a value of the open constants, no other is. -/
def defaultConfig : ConfigRegs where
  outPin := defaultOutPin
  sensePin := defaultSensePin
  pwmFreq := BitVec.ofNat 32 (1000 + defaultPwmFreqOffset.val)
  pwmRes := BitVec.ofNat 8 (1 + defaultPwmResOffset.val)
  senseRate := BitVec.ofNat 32 (1 + defaultSenseRateOffset.val)
  senseRes := BitVec.ofNat 8 (1 + defaultSenseResOffset.val)

/-- The parameters with the values of the table of R8. -/
def params : Params where
  ringN := 64
  qSlots := 16
  maxFrame := 64
  crcPoly := 0x07
  crcInit := 0x00
  crcXorOut := 0x00
  telemMagic := 0xAA
  typeSnapshot := 0x00
  typeTimesync := 0x01
  timesyncIntervalUs := 500000
  pwmFreqMin := 1000
  pwmFreqMax := 100000
  fwVersion := fwVersion
  settingsTag := settingsTag
  defaultConfig := defaultConfig
  segDefaultDurationUs := 1000
  segFallthroughSave := false

/-! ## Values from outside the block (93_implementation_defined.md I1, I2, I3, I14) -/

/-- What `AdcRead(pin)` draws at the n-th free draw, before it is brought into range (I1, log 5). -/
opaque freeAdc : Byte → Nat → U16

/-- By how much the microsecond counter advances at the n-th free step (R49, log 4). -/
opaque freeTime : Nat → U32

/-- The microsecond counter at power-on (I2, log 4). -/
opaque timeAtPowerOn : U32

/-- What the settings store holds at power-on: any bytes (I3, log 3). -/
opaque storeAtPowerOn : List Byte

/-- The start duty of a queue slot that reset leaves unspecified (I14, log 6). -/
opaque freeSegStart : Nat → U16

/-- The end duty of a queue slot that reset leaves unspecified (I14, log 6). -/
opaque freeSegEnd : Nat → U16

/-- The duration of a queue slot that reset leaves unspecified (I14, log 6). -/
opaque freeSegDuration : Nat → U32

/-- Whether a queue slot that reset leaves unspecified holds a Linear record (I14, log 6). -/
opaque freeSegLinear : Nat → Bool

end Sys2Proof.Config
end

