-- ==== Sys2Proof/Syntax.lean ====
section
/-! DEFINITION. The instructions: one constructor for each row of spec/opcode_table.json, and the
records their operands and the block's arrays hold. -/

namespace Sys2Proof

/-- Segment shapes (R39): Step is code 0x00, Linear is code 0x01 (R94). -/
inductive Shape where
  | step
  | linear
deriving DecidableEq, Repr

/-- A segment record of the trajectory queue (R39, R120). -/
structure Segment where
  startDuty : U16
  endDuty : U16
  /-- Microseconds (R121). -/
  duration : U32
  shape : Shape
deriving DecidableEq, Repr

/-- A ring-buffer sample (R43). -/
structure Sample where
  duty : U16
  current : U16
deriving DecidableEq, Repr

/-- The three errors of the block (R210). -/
inductive CommandError where
  /-- Checksum, arity, frequency range or shape (R211). -/
  | invalidPayload
  /-- A duty above `max_duty` (R212). -/
  | invalidDuty
  /-- An unassigned opcode (R213). -/
  | unknownCommand
deriving DecidableEq, Repr

/-- Which stream a frame travels on (R80). -/
inductive Direction where
  | hostToDevice
  | deviceToHost
deriving DecidableEq, Repr

/-- The block's instructions are its frames (R7, R80): 18 commands, 4 responses, 2 telemetry
frames. Operands stand in the order of R92, R85, R95 to R97, R86 and R87. -/
inductive Instr where
  /-- PING, R175. -/
  | ping
  /-- GET_STATUS, R176. -/
  | getStatus
  /-- GET_DUTY, R177. -/
  | getDuty
  /-- SET_OUTPUT_PIN, R178. -/
  | setOutputPin (pin : Byte)
  /-- SET_SENSE_PIN, R179. -/
  | setSensePin (pin : Byte)
  /-- SET_PWM_FREQ, R180. -/
  | setPwmFreq (freq : U32)
  /-- SET_DUTY, R181. -/
  | setDuty (duty : U16)
  /-- SET_DUTY_NOACK, R182. -/
  | setDutyNoack (duty : U16)
  /-- SET_DUTY_FAST, R183. -/
  | setDutyFast (duty : U16)
  /-- STOP_OUTPUT, R184. -/
  | stopOutput
  /-- START_STREAM, R185. -/
  | startStream
  /-- STOP_STREAM, R186. -/
  | stopStream
  /-- START_AUTOMATION, R187. -/
  | startAutomation
  /-- STOP_AUTOMATION, R188. -/
  | stopAutomation
  /-- QUEUE_TRAJ_SEG, R189. The shape is the wire byte, which the handler checks; `none` is the
  5-byte form, `some d` the 9-byte form (R93). -/
  | queueTrajSeg (startDuty endDuty : U16) (shape : Byte) (duration : Option U32)
  /-- SAVE_SETTINGS, R190. -/
  | saveSettings
  /-- SOFT_RESET, R191. -/
  | softReset
  /-- SAVE_AND_RESET, R192. -/
  | saveAndReset
  /-- RESP_ACK, R96: the acknowledged opcode. -/
  | respAck (op : Byte)
  /-- RESP_ERROR, R85: the offending opcode and the error code. -/
  | respError (op code : Byte)
  /-- RESP_STATUS, R95: the status record. -/
  | respStatus (fw : U16) (cfg : Config.ConfigRegs)
  /-- RESP_DUTY, R97. -/
  | respDuty (duty : U16)
  /-- TELEM_SNAPSHOT, R86: the copied samples in slot order. -/
  | telemSnapshot (samples : List Sample)
  /-- TELEM_TIMESYNC, R87: the microsecond counter. -/
  | telemTimesync (t : U32)
deriving DecidableEq, Repr

/-- Commands travel to the device; responses and telemetry travel to the host (R80). -/
def Instr.direction : Instr → Direction
  | .ping | .getStatus | .getDuty | .setOutputPin _ | .setSensePin _ | .setPwmFreq _ => .hostToDevice
  | .setDuty _ | .setDutyNoack _ | .setDutyFast _ | .stopOutput => .hostToDevice
  | .startStream | .stopStream | .startAutomation | .stopAutomation => .hostToDevice
  | .queueTrajSeg _ _ _ _ | .saveSettings | .softReset | .saveAndReset => .hostToDevice
  | .respAck _ | .respError _ _ | .respStatus _ _ | .respDuty _ => .deviceToHost
  | .telemSnapshot _ | .telemTimesync _ => .deviceToHost

end Sys2Proof
end

