-- ==== Sys2Proof/WellFormed.lean ====
section
/-! DEFINITION. Well-formedness: `ConfigValid` (R28), the admitted parameter values (R8, R101), and
which instruction terms are frames the block's protocol has. -/

namespace Sys2Proof

namespace Config

/-- `ConfigValid(c)` (R28). The pins are unconstrained. -/
abbrev ConfigRegs.Valid (p : Params) (c : ConfigRegs) : Prop :=
  (p.pwmFreqMin ≤ c.pwmFreq.toNat ∧ c.pwmFreq.toNat ≤ p.pwmFreqMax) ∧
  (resMin ≤ c.pwmRes.toNat ∧ c.pwmRes.toNat ≤ resMax) ∧
  (rateMin ≤ c.senseRate.toNat ∧ c.senseRate.toNat ≤ rateMax) ∧
  (resMin ≤ c.senseRes.toNat ∧ c.senseRes.toNat ≤ resMax)

/-- The parameter values R8 admits: `RING_N >= 1`, `Q_SLOTS` a power of two of at least 2,
`MAX_FRAME` in 12..257, `DEFAULT_CONFIG` satisfying `ConfigValid`, `TELEM_MAGIC` no first byte of a
response frame (R101), and the two telemetry types distinct (R100). -/
abbrev Params.Valid (p : Params) : Prop :=
  1 ≤ p.ringN ∧
  (2 ≤ p.qSlots ∧ 2 ^ Nat.log2 p.qSlots = p.qSlots) ∧
  (12 ≤ p.maxFrame ∧ p.maxFrame ≤ 257) ∧
  (p.telemMagic ≠ 0x02 ∧ p.telemMagic ≠ 0x03 ∧ p.telemMagic ≠ 0x0F) ∧
  p.typeSnapshot ≠ p.typeTimesync ∧
  p.defaultConfig.Valid p

end Config

/-- The operands fit the frame: a snapshot carries exactly `RING_N` samples (R86). Every other
operand has exactly the width of its field. -/
def Instr.fits (p : Config.Params) : Instr → Bool
  | .telemSnapshot samples => samples.length == p.ringN
  | _ => true

/-- The opcodes an acknowledgment can echo: PING and the commands that change state and reply
(R194). -/
def ackedOpcodes : List Byte :=
  [0x01, 0x10, 0x11, 0x12, 0x20, 0x23, 0x30, 0x31, 0x40, 0x41, 0x52, 0x60, 0x70, 0x71]

/-- A frame the protocol has: it fits, an acknowledgment echoes an acknowledged opcode (R96, R194),
an error carries one of the three codes (R90). -/
def Instr.wf (p : Config.Params) (i : Instr) : Bool :=
  i.fits p &&
  match i with
  | .respAck op => ackedOpcodes.contains op
  | .respError _ code => code == 0x01 || code == 0x02 || code == 0x03
  | _ => true

end Sys2Proof
end

