-- ==== Sys2Proof/Decode.lean ====
section
/-! DEFINITION. The wire: byte order (R10, R62, R91), the two integrity generators
(spec/40_integrity.md), the number tables (R88 to R90), the decoder, and the encoder after it. -/

namespace Sys2Proof

/-! ## Byte order -/

/-- `be16(v)` (R10). -/
def be16 (v : U16) : List Byte := [v.extractLsb' 8 8, v.extractLsb' 0 8]

/-- `be32(v)` (R10). -/
def be32 (v : U32) : List Byte :=
  [v.extractLsb' 24 8, v.extractLsb' 16 8, v.extractLsb' 8 8, v.extractLsb' 0 8]

/-- `le16(v)` (R10). -/
def le16 (v : U16) : List Byte := [v.extractLsb' 0 8, v.extractLsb' 8 8]

/-- The 16-bit value of two bytes, the more significant first (R91). -/
def word16 (hi lo : Byte) : U16 := hi ++ lo

/-- The 32-bit value of four bytes, the most significant first (R91). -/
def word32 (b3 b2 b1 b0 : Byte) : U32 := ((b3 ++ b2 : U16) ++ (b1 ++ b0 : U16))

/-! ## Integrity generators -/

/-- `Checksum8(s)`, the additive checksum (R110). -/
def checksum8 (s : List Byte) : Byte := s.foldl (· + ·) 0

/-- One of the eight shifts of R113: the most significant bit leaves and selects the polynomial. -/
def crcShift (poly c : Byte) : Byte :=
  if c.msb then (c <<< 1) ^^^ poly else c <<< 1

/-- One byte of R113. -/
def crcByte (poly c b : Byte) : Byte :=
  (List.range 8).foldl (fun r _ => crcShift poly r) (c ^^^ b)

/-- The bytes of R113 from a running value. The value is split into zero and not zero only so that
Lean's kernel computes it before it goes on; `crcRun_eq_foldl` (Laws/Wire.lean) says it is the
plain fold of `crcByte`. -/
def crcRun (poly : Byte) : List Byte → Byte → Byte
  | [], c => c
  | b :: rest, c =>
    match (crcByte poly c b).toNat with
    | 0 => crcRun poly rest 0
    | n + 1 => crcRun poly rest (BitVec.ofNat 8 (n + 1))

/-- `CRC8(s)` (R113). -/
def crc8 (p : Config.Params) (s : List Byte) : Byte :=
  crcRun p.crcPoly s p.crcInit ^^^ p.crcXorOut

/-! ## Numbers -/

/-- The eighteen command opcodes, in the order of R88. -/
inductive Opcode where
  | ping
  | getStatus
  | getDuty
  | setOutputPin
  | setSensePin
  | setPwmFreq
  | setDuty
  | setDutyNoack
  | setDutyFast
  | stopOutput
  | startStream
  | stopStream
  | startAutomation
  | stopAutomation
  | queueTrajSeg
  | saveSettings
  | softReset
  | saveAndReset
deriving DecidableEq, Repr

/-- Opcode numbers (R88). -/
def opcodeByte : Opcode → Byte
  | .ping => 0x01
  | .getStatus => 0x02
  | .getDuty => 0x03
  | .setOutputPin => 0x10
  | .setSensePin => 0x11
  | .setPwmFreq => 0x12
  | .setDuty => 0x20
  | .setDutyNoack => 0x21
  | .setDutyFast => 0x22
  | .stopOutput => 0x23
  | .startStream => 0x30
  | .stopStream => 0x31
  | .startAutomation => 0x40
  | .stopAutomation => 0x41
  | .queueTrajSeg => 0x52
  | .saveSettings => 0x60
  | .softReset => 0x70
  | .saveAndReset => 0x71

/-- `OPCODES` (R88). -/
def allOpcodes : List Opcode :=
  [.ping, .getStatus, .getDuty, .setOutputPin, .setSensePin, .setPwmFreq, .setDuty, .setDutyNoack,
   .setDutyFast, .stopOutput, .startStream, .stopStream, .startAutomation, .stopAutomation,
   .queueTrajSeg, .saveSettings, .softReset, .saveAndReset]

/-- The command a byte is the opcode of; `none` for the 238 unassigned values (R98). -/
def opcodeOf (b : Byte) : Option Opcode := allOpcodes.find? (fun o => opcodeByte o == b)

/-- Response ids (R89). -/
def respAckId : Byte := 0xA0
/-- `RESP_ERROR` (R89). -/
def respErrorId : Byte := 0xA1
/-- `RESP_STATUS` (R89). -/
def respStatusId : Byte := 0xA2
/-- `RESP_DUTY` (R89). -/
def respDutyId : Byte := 0xA3

/-- Error codes (R90). -/
def errorCode : CommandError → Byte
  | .invalidPayload => 0x01
  | .invalidDuty => 0x02
  | .unknownCommand => 0x03

/-! ## Decoding -/

/-- Why a decoder refuses bytes. The first three are the errors the block reports to the host; the
receiver discards a bad length (R99); the rest concern bytes that are no frame of the device. -/
inductive DecodeError where
  /-- The checksum does not match (R173); `op` is `body[0]`. -/
  | badChecksum (op : Byte)
  /-- An unassigned opcode (R98, R193). -/
  | unknownOpcode (op : Byte)
  /-- A payload length that is no arity of the opcode (R92). -/
  | badArity (op : Byte)
  /-- A length byte outside `[1, MAX_FRAME - 2]` (R82). -/
  | badLength (l : Byte)
  /-- Fewer bytes than the frame has. -/
  | truncated
  /-- A response id the block does not send (R84). -/
  | unknownId (id : Byte)
  /-- A response payload length its id does not have. -/
  | badRecord (id : Byte)
  /-- A telemetry type the block does not send (R100). -/
  | unknownType (ty : Byte)
  /-- The CRC does not match (R115). -/
  | badCrc
deriving DecidableEq, Repr

/-- The payload of each opcode, read as its operands; `none` when its length is not admitted
(R92, R93). -/
def decodeOperands : Opcode → List Byte → Option Instr
  | .ping, [] => some .ping
  | .getStatus, [] => some .getStatus
  | .getDuty, [] => some .getDuty
  | .setOutputPin, [pin] => some (.setOutputPin pin)
  | .setSensePin, [pin] => some (.setSensePin pin)
  | .setPwmFreq, [f3, f2, f1, f0] => some (.setPwmFreq (word32 f3 f2 f1 f0))
  | .setDuty, [dh, dl] => some (.setDuty (word16 dh dl))
  | .setDutyNoack, [dh, dl] => some (.setDutyNoack (word16 dh dl))
  | .setDutyFast, [dh, dl] => some (.setDutyFast (word16 dh dl))
  | .stopOutput, [] => some .stopOutput
  | .startStream, [] => some .startStream
  | .stopStream, [] => some .stopStream
  | .startAutomation, [] => some .startAutomation
  | .stopAutomation, [] => some .stopAutomation
  | .queueTrajSeg, [sh, sl, eh, el, shape] =>
    some (.queueTrajSeg (word16 sh sl) (word16 eh el) shape none)
  | .queueTrajSeg, [sh, sl, eh, el, shape, d3, d2, d1, d0] =>
    some (.queueTrajSeg (word16 sh sl) (word16 eh el) shape (some (word32 d3 d2 d1 d0)))
  | .saveSettings, [] => some .saveSettings
  | .softReset, [] => some .softReset
  | .saveAndReset, [] => some .saveAndReset
  | _, _ => none

/-- Opcode, then arity (R174). -/
def decodeCommand (op : Byte) (payload : List Byte) : Except DecodeError Instr :=
  match opcodeOf op with
  | none => .error (.unknownOpcode op)
  | some o =>
    match decodeOperands o payload with
    | none => .error (.badArity op)
    | some i => .ok i

/-- A received body and checksum byte: the checksum before any decoding (R173). The opcode is
`body[0]`; a received body is never empty, since `plen >= 1` (R82, log 15). -/
def decodeBody (body : List Byte) (cs : Byte) : Except DecodeError Instr :=
  if cs ≠ checksum8 body then .error (.badChecksum (body.headD 0))
  else decodeCommand (body.headD 0) body.tail

/-- A length byte is valid when it is in `[1, MAX_FRAME - 2]` (R82). -/
def lengthValid (p : Config.Params) (l : Byte) : Bool :=
  decide (1 ≤ l.toNat ∧ l.toNat ≤ p.maxFrame - 2)

/-- A whole command frame (R81), with the bytes that follow it. -/
def decodeHostFrame (p : Config.Params) : List Byte → Except DecodeError (Instr × List Byte)
  | [] => .error .truncated
  | l :: rest =>
    if lengthValid p l then
      if rest.length < l.toNat + 1 then .error .truncated
      else
        match decodeBody (rest.take l.toNat) (rest.getD l.toNat 0) with
        | .ok i => .ok (i, rest.drop (l.toNat + 1))
        | .error e => .error e
    else .error (.badLength l)

/-- The payload of a response by its id (R85, R95 to R97). -/
def decodeResponse (id : Byte) (payload : List Byte) : Except DecodeError Instr :=
  if id = respAckId then
    match payload with
    | [op] => .ok (.respAck op)
    | _ => .error (.badRecord id)
  else if id = respErrorId then
    match payload with
    | [op, code] => .ok (.respError op code)
    | _ => .error (.badRecord id)
  else if id = respStatusId then
    match payload with
    | [v1, v0, outPin, sensePin, f3, f2, f1, f0, pwmRes, r3, r2, r1, r0, senseRes] =>
      .ok (.respStatus (word16 v1 v0)
        { outPin := outPin, sensePin := sensePin, pwmFreq := word32 f3 f2 f1 f0,
          pwmRes := pwmRes, senseRate := word32 r3 r2 r1 r0, senseRes := senseRes })
    | _ => .error (.badRecord id)
  else if id = respDutyId then
    match payload with
    | [dh, dl] => .ok (.respDuty (word16 dh dl))
    | _ => .error (.badRecord id)
  else .error (.unknownId id)

/-- `n` little-endian samples from the front of the bytes (R86). -/
def decodeSamples : Nat → List Byte → Option (List Sample)
  | 0, [] => some []
  | n + 1, d0 :: d1 :: c0 :: c1 :: rest =>
    (decodeSamples n rest).map (⟨word16 d1 d0, word16 c1 c0⟩ :: ·)
  | _, _ => none

/-- A telemetry body, by its type byte (R86, R87). -/
def decodeTelemetry (p : Config.Params) (ty : Byte) (data : List Byte) : Except DecodeError Instr :=
  if ty = p.typeSnapshot then
    match decodeSamples p.ringN data with
    | some samples => .ok (.telemSnapshot samples)
    | none => .error .truncated
  else if ty = p.typeTimesync then
    match data with
    | [t3, t2, t1, t0] => .ok (.telemTimesync (word32 t3 t2 t1 t0))
    | _ => .error .truncated
  else .error (.unknownType ty)

/-- How many data bytes a telemetry frame has between its type byte and its CRC (R100). -/
def telemetryDataLength (p : Config.Params) (ty : Byte) : Option Nat :=
  if ty = p.typeSnapshot then some (4 * p.ringN)
  else if ty = p.typeTimesync then some 4
  else none

/-- A whole frame of the outbound stream, as a host separates it (R100, R115), with the bytes that
follow it (log 22). -/
def decodeDeviceFrame (p : Config.Params) : List Byte → Except DecodeError (Instr × List Byte)
  | [] => .error .truncated
  | b :: rest =>
    if b = p.telemMagic then
      match rest with
      | [] => .error .truncated
      | ty :: more =>
        match telemetryDataLength p ty with
        | none => .error (.unknownType ty)
        | some n =>
          if more.length < n + 1 then .error .truncated
          else if more.getD n 0 ≠ crc8 p (ty :: more.take n) then .error .badCrc
          else
            match decodeTelemetry p ty (more.take n) with
            | .ok i => .ok (i, more.drop (n + 1))
            | .error e => .error e
    else if rest.length < b.toNat + 1 ∨ b = 0 then .error .truncated
    else
      let body := rest.take b.toNat
      if rest.getD b.toNat 0 ≠ checksum8 body then .error (.badChecksum (body.headD 0))
      else
        match decodeResponse (body.headD 0) body.tail with
        | .ok i => .ok (i, rest.drop (b.toNat + 1))
        | .error e => .error e

/-- The decoder of each stream (R80): the same bytes mean different frames on the two streams. -/
def decodeFrame (p : Config.Params) : Direction → List Byte → Except DecodeError (Instr × List Byte)
  | .hostToDevice => decodeHostFrame p
  | .deviceToHost => decodeDeviceFrame p

/-! ## Encoding -/

/-- A command or response frame around its body `[opcode or id] ++ payload` (R81, R84). -/
def shortFrame (body : List Byte) : List Byte :=
  BitVec.ofNat 8 body.length :: body ++ [checksum8 body]

/-- A telemetry frame around its type and data (R86, R87). -/
def telemetryFrame (p : Config.Params) (body : List Byte) : List Byte :=
  p.telemMagic :: body ++ [crc8 p body]

/-- The data of a snapshot (R86). -/
def samplesBytes (samples : List Sample) : List Byte :=
  samples.flatMap (fun s => le16 s.duty ++ le16 s.current)

/-- The configuration fields in the order of the status record and of the settings record
(R51, R95). -/
def configBytes (c : Config.ConfigRegs) : List Byte :=
  [c.outPin, c.sensePin] ++ be32 c.pwmFreq ++ [c.pwmRes] ++ be32 c.senseRate ++ [c.senseRes]

/-- The body of a command or response: its opcode or id, then its payload (R92, R93, R85, R95 to
R97). For a telemetry frame: its type byte, then its data (R86, R87). -/
def instrBody (p : Config.Params) : Instr → List Byte
  | .ping => [opcodeByte .ping]
  | .getStatus => [opcodeByte .getStatus]
  | .getDuty => [opcodeByte .getDuty]
  | .setOutputPin pin => [opcodeByte .setOutputPin, pin]
  | .setSensePin pin => [opcodeByte .setSensePin, pin]
  | .setPwmFreq f => opcodeByte .setPwmFreq :: be32 f
  | .setDuty d => opcodeByte .setDuty :: be16 d
  | .setDutyNoack d => opcodeByte .setDutyNoack :: be16 d
  | .setDutyFast d => opcodeByte .setDutyFast :: be16 d
  | .stopOutput => [opcodeByte .stopOutput]
  | .startStream => [opcodeByte .startStream]
  | .stopStream => [opcodeByte .stopStream]
  | .startAutomation => [opcodeByte .startAutomation]
  | .stopAutomation => [opcodeByte .stopAutomation]
  | .queueTrajSeg s e shape none => opcodeByte .queueTrajSeg :: be16 s ++ be16 e ++ [shape]
  | .queueTrajSeg s e shape (some d) =>
    opcodeByte .queueTrajSeg :: be16 s ++ be16 e ++ [shape] ++ be32 d
  | .saveSettings => [opcodeByte .saveSettings]
  | .softReset => [opcodeByte .softReset]
  | .saveAndReset => [opcodeByte .saveAndReset]
  | .respAck op => [respAckId, op]
  | .respError op code => [respErrorId, op, code]
  | .respStatus fw cfg => respStatusId :: be16 fw ++ configBytes cfg
  | .respDuty d => respDutyId :: be16 d
  | .telemSnapshot samples => p.typeSnapshot :: samplesBytes samples
  | .telemTimesync t => p.typeTimesync :: be32 t

/-- The bytes of an instruction on its stream (R80). -/
def encode (p : Config.Params) (i : Instr) : List Byte :=
  match i with
  | .telemSnapshot _ | .telemTimesync _ => telemetryFrame p (instrBody p i)
  | _ => shortFrame (instrBody p i)

/-! ## Pseudo-instructions (R103) -/

/-- `RAMP s, e[, dur]`. -/
def ramp (s e : U16) (dur : Option U32) : Instr := .queueTrajSeg s e 0x01 dur

/-- `JUMP e[, dur]`. -/
def jump (e : U16) (dur : Option U32) : Instr := .queueTrajSeg e e 0x00 dur

/-- `HOLD d, dur`. -/
def hold (d : U16) (dur : U32) : Instr := .queueTrajSeg d d 0x00 (some dur)

/-! ## The opcode table's numbering (log 11) -/

/-- The first `nbits / 8` bytes of a table word, bits 7..0 first. -/
def tableBytes (nbits w : Nat) : List Byte :=
  (List.range (nbits / 8)).map (fun k => BitVec.ofNat 8 (w >>> (8 * k)))

/-- `bs` lengthened with zero bytes to the first admitted length that holds it. -/
def padTo (lengths : List Nat) (bs : List Byte) : List Byte :=
  match lengths.find? (fun n => decide (bs.length ≤ n)) with
  | some n => bs ++ List.replicate (n - bs.length) 0
  | none => bs

/-- Admitted payload lengths of an opcode (R92). -/
def arities : Opcode → List Nat
  | .ping | .getStatus | .getDuty | .stopOutput => [0]
  | .startStream | .stopStream | .startAutomation | .stopAutomation => [0]
  | .saveSettings | .softReset | .saveAndReset => [0]
  | .setOutputPin | .setSensePin => [1]
  | .setPwmFreq => [4]
  | .setDuty | .setDutyNoack | .setDutyFast => [2]
  | .queueTrajSeg => [5, 9]

/-- The frame a table word stands for, and its stream. The table numbers the first body byte (the
opcode, the response id or the telemetry type) and the bytes after it; the length byte, the
checksum, the magic and the CRC are computed. A byte that is an opcode is read as the opcode: the
table gives PING and TELEM_TIMESYNC the same number, 0x01, and it is read as PING. -/
def tableFrame (nbits w : Nat) : Option (Direction × List Byte) :=
  match tableBytes nbits w with
  | [] => none
  | b :: rest =>
    match opcodeOf b with
    | some o => some (.hostToDevice, shortFrame (b :: padTo (arities o) rest))
    | none =>
      if b = respAckId then some (.deviceToHost, shortFrame (b :: padTo [1] rest))
      else if b = respErrorId then some (.deviceToHost, shortFrame (b :: padTo [2] rest))
      else if b = respStatusId then some (.deviceToHost, shortFrame (b :: padTo [14] rest))
      else if b = respDutyId then some (.deviceToHost, shortFrame (b :: padTo [2] rest))
      else if b = Config.params.typeSnapshot then
        some (.deviceToHost,
          telemetryFrame Config.params (b :: padTo [4 * Config.params.ringN] rest))
      else some (.hostToDevice, shortFrame (b :: rest))

/-- The instruction the decoder reads from a table word (log 11). -/
def decodeTableWord (nbits w : Nat) : Option Instr :=
  match tableFrame nbits w with
  | none => none
  | some (dir, bytes) =>
    match decodeFrame Config.params dir bytes with
    | .ok (i, _) => some i
    | .error _ => none

end Sys2Proof
end

