-- ==== Sys2Proof/Machine/Settings.lean ====
section
/-! DEFINITION. The settings record (R51) and what reset computes from it (R31, R240). -/

namespace Sys2Proof.Machine

/-- `SettingsRecord()` (R51, R190). -/
def settingsRecord (p : Config.Params) (c : Config.ConfigRegs) : List Byte :=
  be16 p.settingsTag ++ configBytes c

/-- The fields of a stored record of 14 bytes, with its tag; `none` for any other length (R51). -/
def decodeRecord : List Byte → Option (U16 × Config.ConfigRegs)
  | [t1, t0, outPin, sensePin, f3, f2, f1, f0, pwmRes, r3, r2, r1, r0, senseRes] =>
    some (word16 t1 t0,
      { outPin := outPin, sensePin := sensePin, pwmFreq := word32 f3 f2 f1 f0, pwmRes := pwmRes,
        senseRate := word32 r3 r2 r1 r0, senseRes := senseRes })
  | _ => none

/-- The configuration reset takes from the bytes `NvLoad` returns: the record when its length, tag
and `ConfigValid` hold, else `DEFAULT_CONFIG` (R51, R240 step 2). -/
def loadConfig (p : Config.Params) (store : List Byte) : Config.ConfigRegs :=
  match decodeRecord store with
  | some (tag, c) => if tag = p.settingsTag ∧ c.Valid p then c else p.defaultConfig
  | none => p.defaultConfig

/-- `period_us = 1000000 / sense_rate`, rounded down (R31). -/
def periodOf (senseRate : U32) : U32 := BitVec.ofNat 32 (1000000 / senseRate.toNat)

end Sys2Proof.Machine
end

