-- ==== Sys2Proof/Machine/State.lean ====
section
/-! DEFINITION. The machine's state: every piece of state the spec names, as plain data, and its
value after power-on reset (R54, R240). -/

namespace Sys2Proof.Machine

/-- The receiver's two states (R47, R170). -/
inductive Pstate where
  | awaitLen
  | awaitBody
deriving DecidableEq, Repr

/-- COOP's place in the loop pass (R52, R156), with the local values it carries there (R220). The
numbered lines are those of `Snapshot` (R151) and `TimeSync` (R154). -/
inductive CoopPos where
  /-- The top of a loop pass. -/
  | passStart
  /-- `Snapshot` line 1. -/
  | snapFlag
  /-- `Snapshot` line 2. -/
  | snapAvail
  /-- Before the exclusion window of `Snapshot` line 3. -/
  | snapEnter
  /-- Inside the exclusion window of `Snapshot` line 3: ticks are masked (R70, R218). -/
  | snapWindow
  /-- `TimeSync` line 1. -/
  | syncAvail
  /-- `TimeSync` line 2. -/
  | syncClock
  /-- `TimeSync` line 3, with the counter value read. -/
  | syncMark (t : U32)
  /-- The next COOP step sends this frame (`Snapshot` lines 4 and 5, `TimeSync` line 4). -/
  | send (frame : Instr)
deriving DecidableEq, Repr

/-- The registers whose single writer is COOP (R20). -/
structure CoopRegs where
  /-- R32. -/
  streamingEnabled : Bool
  /-- R33. -/
  automationEnabled : Bool
  /-- R34. -/
  autoGen : U32
  /-- R36. -/
  dutyCmd : U16
  /-- R36. -/
  dutyGen : U32
  /-- `q[0..Q_SLOTS-1]` (R39). -/
  queue : List Segment
  /-- R40. -/
  qHead : Nat
  /-- R46. -/
  wrapSeen : U32
  /-- R47. -/
  pstate : Pstate
  /-- R47. -/
  plen : Byte
  /-- R48. -/
  lastSyncUs : U32
  /-- R52. -/
  pos : CoopPos
deriving DecidableEq, Repr

/-- The registers whose single writer is TICK (R20). -/
structure TickRegs where
  /-- R34. -/
  autoSeen : U32
  /-- R35. -/
  autoActive : Bool
  /-- R37. -/
  dutySeen : U32
  /-- R38. -/
  dutyOut : U16
  /-- R41. -/
  qTail : Nat
  /-- R42. -/
  segStart : U16
  /-- R42. -/
  segEnd : U16
  /-- R42. -/
  segShape : Shape
  /-- R42. -/
  segTotal : U32
  /-- R42. -/
  segStep : U32
  /-- R42. -/
  segAcc : I64
  /-- `ring[0..RING_N-1]` (R43). -/
  ring : List Sample
  /-- R44. -/
  widx : Nat
  /-- R45. -/
  wrapCount : U32
deriving DecidableEq, Repr

/-- One call of a PWM primitive, as the model observes the actuator (R230). -/
inductive PinEvent where
  /-- `PwmWrite(pin, d)`. -/
  | pwmWrite (pin : Byte) (duty : U16)
  /-- `PwmConfigure(pin, f, r)`. -/
  | pwmConfigure (pin : Byte) (freq : U32) (res : Byte)
deriving DecidableEq, Repr

/-- The external collaborators' state at the block's interface (R49 to R51, R230). -/
structure ExtState where
  /-- The microsecond counter (R49). -/
  timeBase : U32
  /-- Inbound bytes not yet consumed, the oldest first (R50). -/
  inbound : List Byte
  /-- Outbound bytes HOST has not removed, the oldest first (R50). -/
  outbound : List Byte
  /-- The settings store's content (R51, R234). -/
  store : List Byte
  /-- The output and the configuration trace in one order, the oldest first (R230, log 17). -/
  trace : List PinEvent
deriving DecidableEq, Repr

/-- The block's two internal agents (R3). -/
inductive Agent where
  | tick
  | coop
deriving DecidableEq, Repr

/-- One element of an interleaving of agent steps and inputs (R67, log 7). -/
inductive Event where
  /-- The tick falls due; `c` is the draw its `AdcRead` returns (R144). -/
  | tick (c : U16)
  /-- COOP takes its next step (R67). -/
  | coop
  /-- HOST appends bytes to the inbound sequence (R50, R237). -/
  | host (bytes : List Byte)
  /-- HOST removes bytes from the outbound sequence (R50, R237). -/
  | hostRead (n : Nat)
  /-- The microsecond counter moves forward by `d` modulo 2^32 (R49). -/
  | time (d : U32)
  /-- The store's content becomes other bytes (R234, I3). -/
  | envStore (bytes : List Byte)
deriving DecidableEq, Repr

/-- The model's own fields: which agent moves next, and the free values' counter (log 5, log 7). -/
structure SchedState where
  /-- The coming events; when it is empty the agents alternate. -/
  script : List Event
  /-- Who moves next when the script is empty. -/
  turn : Agent
  /-- How many free draws have been made. -/
  freeIdx : Nat
deriving DecidableEq, Repr

/-- The machine. -/
structure State where
  /-- R8 (log 1). No step writes it. -/
  params : Config.Params
  /-- The configuration registers (R21). -/
  cfg : Config.ConfigRegs
  /-- `period_us` (R30). -/
  periodUs : U32
  /-- COOP's registers. -/
  coop : CoopRegs
  /-- TICK's registers. -/
  tick : TickRegs
  /-- The pending tick, with its draw (R218). -/
  tickPending : Option U16
  /-- The external state. -/
  ext : ExtState
  /-- The interleaving. -/
  sched : SchedState
deriving DecidableEq, Repr

/-- Why a step stops with a fault. It has no constructor: "No behaviour of this block is treated
as `fault`" (93_implementation_defined.md; R215, R217). -/
inductive Fault where
deriving DecidableEq, Repr

/-- Why an instruction is refused. -/
inductive Refusal where
  /-- Raised by `exec` alone, for an instruction whose meaning is not written yet. Safe: the model
  stops where the hardware goes on. No arm of `exec` raises it. -/
  | notModelled (mnemonic : String)
deriving DecidableEq, Repr

/-- A queue slot whose content reset leaves unspecified (R39, I14): a free value. -/
def freeSegment (n : Nat) : Segment where
  startDuty := Config.freeSegStart n
  endDuty := Config.freeSegEnd n
  duration := Config.freeSegDuration n
  shape := if Config.freeSegLinear n then .linear else .step

/-- COOP's registers after reset (R54); `n` numbers the free values of the queue slots. -/
def CoopRegs.reset (p : Config.Params) (n : Nat) : CoopRegs where
  streamingEnabled := false
  automationEnabled := false
  autoGen := 0
  dutyCmd := 0
  dutyGen := 0
  queue := (List.range p.qSlots).map (fun k => freeSegment (n + k))
  qHead := 0
  wrapSeen := 0
  pstate := .awaitLen
  plen := 0
  lastSyncUs := 0
  pos := .passStart

/-- TICK's registers after reset (R54). -/
def TickRegs.reset (p : Config.Params) : TickRegs where
  autoSeen := 0
  autoActive := false
  dutySeen := 0
  dutyOut := 0
  qTail := 0
  segStart := 0
  segEnd := 0
  segShape := .step
  segTotal := 0
  segStep := 0
  segAcc := 0
  ring := List.replicate p.ringN ⟨0, 0⟩
  widx := 0
  wrapCount := 0

/-- What reset does to the PWM output: configure it, then drive it to duty 0 (R240 step 4, R242). -/
def resetTrace (c : Config.ConfigRegs) : List PinEvent :=
  [.pwmConfigure c.outPin c.pwmFreq c.pwmRes, .pwmWrite c.outPin 0]

/-- The machine right after power-on reset (R54, R240). The settings store and the microsecond
counter are free values (I2, I3); the transport is empty (log 18). -/
def State.reset : State :=
  let c := loadConfig Config.params Config.storeAtPowerOn
  { params := Config.params
    cfg := c
    periodUs := periodOf c.senseRate
    coop := CoopRegs.reset Config.params 0
    tick := TickRegs.reset Config.params
    tickPending := none
    ext :=
      { timeBase := Config.timeAtPowerOn
        inbound := []
        outbound := []
        store := Config.storeAtPowerOn
        trace := resetTrace c }
    sched := { script := [], turn := .coop, freeIdx := Config.params.qSlots } }

end Sys2Proof.Machine
end

