-- ==== Sys2Proof/Machine/Flags.lean ====
section
/-! DEFINITION. The conditions the agents test: handshakes, queue state, telemetry due. The block
has no arithmetic flags. -/

namespace Sys2Proof.Machine

/-- A start request is pending (R34). -/
def State.startRequested (s : State) : Bool := s.coop.autoGen != s.tick.autoSeen

/-- A duty command has not been applied by a tick yet (R142). -/
def State.dutyPending (s : State) : Bool := s.coop.dutyGen != s.tick.dutySeen

/-- The slot after `i` (R40, R41). -/
def State.nextSlot (s : State) (i : Nat) : Nat := (i + 1) % s.params.qSlots

/-- The queue is empty (R41). -/
def State.queueEmpty (s : State) : Bool := s.coop.qHead == s.tick.qTail

/-- The queue is full (R41). -/
def State.queueFull (s : State) : Bool := s.nextSlot s.coop.qHead == s.tick.qTail

/-- The record in slot `i`: `MemRead(q, i, 9)` (R11). Slots are read inside the array only; outside
it (no run goes there, log 15) the value is a zero record. -/
def State.readQueue (s : State) (i : Nat) : Segment := s.coop.queue.getD i ⟨0, 0, 0, .step⟩

/-- How many segments are queued (R41). -/
def State.queueCount (s : State) : Nat :=
  (s.coop.qHead + s.params.qSlots - s.tick.qTail) % s.params.qSlots

/-- The live region, the next segment to start first (R72, R123). -/
def State.liveSegments (s : State) : List Segment :=
  (List.range s.queueCount).map (fun k => s.readQueue ((s.tick.qTail + k) % s.params.qSlots))

/-- `Available()` (R12): inbound bytes not yet consumed. R230 types it u32 and R50 bounds the sequence
nowhere; at 2^32 unread bytes or more the spec does not say what it returns, and the model returns the
exact count (DESIGN CHOICE, log 26). -/
def State.available (s : State) : Nat := s.ext.inbound.length

/-- A wrap has completed since the last snapshot or START_STREAM (R150). -/
def State.wrapPending (s : State) : Bool := s.tick.wrapCount != s.coop.wrapSeen

/-- A time-sync is due at counter value `t` (R153): the distance is modulo 2^32. -/
def State.syncDue (s : State) (t : U32) : Bool :=
  decide (s.params.timesyncIntervalUs ≤ (t - s.coop.lastSyncUs).toNat)

/-- COOP holds the exclusion window: ticks are masked (R70, R218). -/
def State.windowOpen (s : State) : Bool := s.coop.pos == .snapWindow

end Sys2Proof.Machine
end

