-- ==== Sys2Proof/Machine/Operands.lean ====
section
/-! DEFINITION. Operand values: the checks and conversions the handlers apply to wire fields. -/

namespace Sys2Proof.Machine

/-- `max_duty = (1 << pwm_res) - 1` (R25). -/
def maxDuty (c : Config.ConfigRegs) : Nat := 2 ^ c.pwmRes.toNat - 1

/-- A duty operand is legal when it does not exceed `max_duty` (R181, R212). -/
def dutyLegal (c : Config.ConfigRegs) (d : U16) : Bool := decide (d.toNat ≤ maxDuty c)

/-- A frequency operand is legal in `[PWM_FREQ_MIN, PWM_FREQ_MAX]` (R180). -/
def freqLegal (p : Config.Params) (f : U32) : Bool :=
  decide (p.pwmFreqMin ≤ f.toNat ∧ f.toNat ≤ p.pwmFreqMax)

/-- Shape codes (R94); any other byte is illegal. -/
def shapeOf (b : Byte) : Option Shape :=
  if b = 0x00 then some .step else if b = 0x01 then some .linear else none

/-- The 5-byte form has the default duration (R93). -/
def segDuration (p : Config.Params) : Option U32 → U32
  | some d => d
  | none => p.segDefaultDurationUs

/-- A current-sense conversion: a draw brought into `[0, 2^sense_res - 1]` (R27, R144, log 5). -/
def adcInRange (c : Config.ConfigRegs) (draw : U16) : U16 :=
  BitVec.ofNat 16 (draw.toNat % 2 ^ c.senseRes.toNat)

/-- The value of a Linear segment: `start + trunc_div(acc, total)`, the division rounding toward
zero (R10, R125, R127). -/
def linearValue (start : U16) (acc : I64) (total : U32) : U16 :=
  BitVec.ofInt 16 ((start.toNat : Int) + Int.tdiv acc.toInt (total.toNat : Int))

end Sys2Proof.Machine
end

