-- ==== Sys2Proof/Machine/Ops.lean ====
section
/-! DEFINITION. The named operations: the external primitives (R12, R230), one write per register,
raising an error, and reset. -/

namespace Sys2Proof.Machine

/-! ## External primitives -/

/-- `Send(s)` (R12): the bytes, whole and in order, at the end of the outbound sequence. -/
def State.send (s : State) (bytes : List Byte) : State :=
  { s with ext.outbound := s.ext.outbound ++ bytes }

/-- Send a frame of the block (R84, R86, R87). -/
def State.sendFrame (s : State) (i : Instr) : State := s.send (encode s.params i)

/-- `RecvByte()` taken `n` times (R12): the oldest bytes leave the inbound sequence. -/
def State.recvBytes (s : State) (n : Nat) : State :=
  { s with ext.inbound := s.ext.inbound.drop n }

/-- `PwmWrite(pin, d)` (R231). -/
def State.pwmWrite (s : State) (pin : Byte) (d : U16) : State :=
  { s with ext.trace := s.ext.trace ++ [.pwmWrite pin d] }

/-- `PwmConfigure(pin, f, r)` (R232). -/
def State.pwmConfigure (s : State) (pin : Byte) (f : U32) (r : Byte) : State :=
  { s with ext.trace := s.ext.trace ++ [.pwmConfigure pin f r] }

/-- `NvStore(b)` (R234). -/
def State.nvStore (s : State) (bytes : List Byte) : State := { s with ext.store := bytes }

/-- `NowUs()` (R227). -/
def State.nowUs (s : State) : U32 := s.ext.timeBase

/-! ## Errors -/

/-- `raise <Error>(op)` (R12, R85, R210): the error frame, and no other effect (R215). Every
error of the block is taken through this operation. -/
def State.raise (s : State) (e : CommandError) (op : Byte) : State :=
  s.sendFrame (.respError op (errorCode e))

/-- The acknowledgment of a command (R96, R194). -/
def State.ack (s : State) (o : Opcode) : State := s.sendFrame (.respAck (opcodeByte o))

/-! ## Register writes of COOP (R20) -/

/-- Write `out_pin` (R22). -/
def State.setOutPin (s : State) (v : Byte) : State := { s with cfg.outPin := v }

/-- Write `sense_pin` (R23). -/
def State.setSensePin (s : State) (v : Byte) : State := { s with cfg.sensePin := v }

/-- Write `pwm_freq` (R24). -/
def State.setPwmFreq (s : State) (v : U32) : State := { s with cfg.pwmFreq := v }

/-- Write `streaming_enabled` (R32). -/
def State.setStreaming (s : State) (v : Bool) : State := { s with coop.streamingEnabled := v }

/-- Write `automation_enabled` (R33). -/
def State.setAutomation (s : State) (v : Bool) : State := { s with coop.automationEnabled := v }

/-- Increment `auto_gen` modulo 2^32 (R34). -/
def State.bumpAutoGen (s : State) : State := { s with coop.autoGen := s.coop.autoGen + 1 }

/-- Write `duty_cmd` (R36). -/
def State.setDutyCmd (s : State) (v : U16) : State := { s with coop.dutyCmd := v }

/-- Increment `duty_gen` modulo 2^32 (R36). -/
def State.bumpDutyGen (s : State) : State := { s with coop.dutyGen := s.coop.dutyGen + 1 }

/-- `MemWrite(q, i, 9, seg)` (R11). -/
def State.writeQueue (s : State) (i : Nat) (seg : Segment) : State :=
  { s with coop.queue := s.coop.queue.set i seg }

/-- Write `q_head` (R40). -/
def State.setQHead (s : State) (v : Nat) : State := { s with coop.qHead := v }

/-- Write `wrap_seen` (R46). -/
def State.setWrapSeen (s : State) (v : U32) : State := { s with coop.wrapSeen := v }

/-- Write `pstate` (R47). -/
def State.setPstate (s : State) (v : Pstate) : State := { s with coop.pstate := v }

/-- Write `plen` (R47). -/
def State.setPlen (s : State) (v : Byte) : State := { s with coop.plen := v }

/-- Write `last_sync_us` (R48). -/
def State.setLastSync (s : State) (v : U32) : State := { s with coop.lastSyncUs := v }

/-- Move COOP to a place of the loop pass (R52). -/
def State.setPos (s : State) (v : CoopPos) : State := { s with coop.pos := v }

/-! ## Reset -/

/-- `DeviceReset()` (R235, R240). The pending tick and the running handler are dropped; the
configuration is loaded from the store; every register takes its value of R54; the peripherals are
set up. The transport, the store and the microsecond counter are kept (R244). -/
def State.deviceReset (s : State) : State :=
  let c := loadConfig s.params s.ext.store
  { s with
    cfg := c
    periodUs := periodOf c.senseRate
    coop := CoopRegs.reset s.params s.sched.freeIdx
    tick := TickRegs.reset s.params
    tickPending := none
    ext.trace := s.ext.trace ++ resetTrace c
    sched.freeIdx := s.sched.freeIdx + s.params.qSlots }

end Sys2Proof.Machine
end

