-- ==== Sys2Proof/Machine/Trajectory.lean ====
section
/-! DEFINITION. The part of the Trajectory Engine that runs in TICK: `Start` (R124) and `Advance`
(R125). -/

namespace Sys2Proof.Machine

/-- Load a record into the active segment and activate it (R124). -/
def State.loadSegment (s : State) (seg : Segment) : State :=
  { s with
    tick.qTail := s.nextSlot s.tick.qTail
    tick.segStart := seg.startDuty
    tick.segEnd := seg.endDuty
    tick.segShape := seg.shape
    tick.segTotal := seg.duration / s.periodUs
    tick.segStep := 0
    tick.segAcc := 0
    tick.autoActive := true }

/-- `Start()` (R124): pop the next segment, or clear `auto_active` and answer false. -/
def State.start (s : State) : Bool × State :=
  if s.queueEmpty then (false, { s with tick.autoActive := false })
  else (true, s.loadSegment (s.readQueue s.tick.qTail))

/-- The loop at the entry of `Advance` (R125, R129): leave completed segments. It answers the value
to hold when no segment is left. Each round removes one segment, so `Q_SLOTS` rounds always end it;
with no round left (no run goes there, log 15) it holds. -/
def State.skipCompleted : Nat → State → Option U16 × State
  | 0, s => (some s.tick.segEnd, s)
  | n + 1, s =>
    if s.tick.segStep < s.tick.segTotal then (none, s)
    else
      match s.start with
      | (false, s') => (some s.tick.segEnd, s')
      | (true, s') => State.skipCompleted n s'

/-- `seg_acc` after this call: a Linear segment adds `end - start` (R125, R127). -/
def State.nextAcc (s : State) : I64 :=
  match s.tick.segShape with
  | .step => s.tick.segAcc
  | .linear => s.tick.segAcc + (s.tick.segEnd.setWidth 64 - s.tick.segStart.setWidth 64)

/-- The value this call returns (R126, R127). -/
def State.segValue (s : State) : U16 :=
  match s.tick.segShape with
  | .step => s.tick.segEnd
  | .linear => linearValue s.tick.segStart s.nextAcc s.tick.segTotal

/-- The rest of `Advance` (R125): one step of the active segment, chaining at its last (R130). -/
def State.segmentStep (s : State) : U16 × State :=
  let s' := { s with tick.segAcc := s.nextAcc, tick.segStep := s.tick.segStep + 1 }
  if s'.tick.segStep = s'.tick.segTotal then (s.segValue, s'.start.2) else (s.segValue, s')

/-- `Advance()` (R125). -/
def State.advance (s : State) : U16 × State :=
  match s.skipCompleted s.params.qSlots with
  | (some hold, s') => (hold, s')
  | (none, s') => s'.segmentStep

end Sys2Proof.Machine
end

