-- ==== Sys2Proof/Machine/ControlTick.lean ====
section
/-! DEFINITION. The control tick (R140): the only step of TICK, and the block's only interrupt
(R218). Its entry saves nothing and its return restores nothing (R220, R221). -/

namespace Sys2Proof.Machine

/-- Step (a), the start-request check (R141). -/
def State.tickRequest (s : State) : State :=
  if s.coop.automationEnabled then
    if s.startRequested then ({ s with tick.autoSeen := s.coop.autoGen } : State).start.2 else s
  else { s with tick.autoActive := false, tick.autoSeen := s.coop.autoGen }

/-- Step (a), the duty: the trajectory's, a pending command's, or the held one (R141, R142). -/
def State.tickDuty (s : State) : U16 × State :=
  if s.tick.autoActive then s.advance
  else if s.dutyPending then (s.coop.dutyCmd, { s with tick.dutySeen := s.coop.dutyGen })
  else (s.tick.dutyOut, s)

/-- Step (a)'s last write and step (b) (R140, R143). -/
def State.tickDrive (s : State) (d : U16) : State :=
  ({ s with tick.dutyOut := d } : State).pwmWrite s.cfg.outPin d

/-- Steps (c) and (d): the sample and its slot (R144, R145). `c` is what `AdcRead` draws. -/
def State.tickSample (s : State) (d c : U16) : State :=
  let next := (s.tick.widx + 1) % s.params.ringN
  { s with
    tick.ring := s.tick.ring.set s.tick.widx ⟨d, adcInRange s.cfg c⟩
    tick.widx := next
    tick.wrapCount := if next = 0 then s.tick.wrapCount + 1 else s.tick.wrapCount }

/-- `Tick()` (R140), one atomic step. -/
def State.tickStep (s : State) (c : U16) : State :=
  let (d, s') := s.tickRequest.tickDuty
  (s'.tickDrive d).tickSample d c

end Sys2Proof.Machine
end

