-- ==== Sys2Proof/Machine/Schedule.lean ====
section
/-! DEFINITION. The interleaving (R67): what falls between two COOP steps. -/

namespace Sys2Proof.Machine

/-- The tick falls due (R218): it runs at once, or waits, at most one, while COOP holds the
exclusion window (log 10). -/
def State.tickDue (s : State) (c : U16) : State :=
  if s.windowOpen then { s with tickPending := some (s.tickPending.getD c) } else s.tickStep c

/-- Leave the exclusion window: a pending tick is taken as soon as the window ends (R218). -/
def State.takePending (s : State) : State :=
  match s.tickPending with
  | none => s
  | some c => ({ s with tickPending := none } : State).tickStep c

/-- One event of TICK, HOST or ENV (R3). COOP's own step is no effect here. -/
def State.outside (s : State) : Event → State
  | .tick c => s.tickDue c
  | .coop => s
  | .host bytes => { s with ext.inbound := s.ext.inbound ++ bytes }
  | .hostRead n => { s with ext.outbound := s.ext.outbound.drop n }
  | .time d => { s with ext.timeBase := s.ext.timeBase + d }
  | .envStore bytes => { s with ext.store := bytes }

/-- Run the events of `script` up to COOP's next step, which uses up one `coop` event. -/
def State.runUntilCoop : List Event → State → State
  | [], s => { s with sched.script := [] }
  | .coop :: rest, s => { s with sched.script := rest }
  | e :: rest, s => State.runUntilCoop rest (s.outside e)

/-- The boundary between two COOP steps inside a handler: whatever the interleaving puts there
(R67, R68, R220, log 8). -/
def State.yield (s : State) : State := s.runUntilCoop s.sched.script

/-- When the script is empty, time passes by a free amount before the next agent moves (log 4,
log 7). -/
def State.freeAdvance (s : State) : State :=
  { s with
    ext.timeBase := s.ext.timeBase + Config.freeTime s.sched.freeIdx
    sched.freeIdx := s.sched.freeIdx + 1 }

end Sys2Proof.Machine
end

