-- ==== Sys2Proof/Machine/ConfigSetters.lean ====
section
/-! DEFINITION. The configuration setters: SET_OUTPUT_PIN, SET_SENSE_PIN, SET_PWM_FREQ. -/

namespace Sys2Proof.Machine

/-- SET_OUTPUT_PIN (R178). -/
def execSetOutputPin (pin : Byte) (s : State) : Host.Outcome State Fault Refusal :=
  let s1 := (s.setOutPin pin).yield
  let s2 := (s1.pwmConfigure pin s1.cfg.pwmFreq s1.cfg.pwmRes).yield
  .next (s2.ack .setOutputPin)

/-- SET_SENSE_PIN (R179). -/
def execSetSensePin (pin : Byte) (s : State) : Host.Outcome State Fault Refusal :=
  .next ((s.setSensePin pin).yield.ack .setSensePin)

/-- The writes of SET_PWM_FREQ once its range check has passed (R180). -/
def applyPwmFreq (freq : U32) (s : State) : State :=
  let s1 := (s.setPwmFreq freq).yield
  (s1.pwmConfigure s1.cfg.outPin freq s1.cfg.pwmRes).yield.ack .setPwmFreq

/-- SET_PWM_FREQ (R180). A frequency out of range is `InvalidPayload` (R211). -/
def execSetPwmFreq (freq : U32) (s : State) : Host.Outcome State Fault Refusal :=
  .next
    (if freqLegal s.params freq then applyPwmFreq freq s
     else s.raise .invalidPayload (opcodeByte .setPwmFreq))

end Sys2Proof.Machine
end

