-- ==== Sys2Proof/Machine/DutyCommands.lean ====
section
/-! DEFINITION. The duty commands: SET_DUTY, SET_DUTY_NOACK, SET_DUTY_FAST, STOP_OUTPUT. -/

namespace Sys2Proof.Machine

/-- Publish a duty (R68, R181 lines 1 and 2): the value first, its generation after it. -/
def publishDuty (duty : U16) (s : State) : State := (s.setDutyCmd duty).yield.bumpDutyGen

/-- The value check of the three duty setters, then what the variant does (R181 to R183). A duty
above `max_duty` is `InvalidDuty` (R212). -/
def checkedDuty (o : Opcode) (duty : U16) (accepted : State) (s : State) : State :=
  if dutyLegal s.cfg duty then accepted else s.raise .invalidDuty (opcodeByte o)

/-- SET_DUTY (R181). -/
def execSetDuty (duty : U16) (s : State) : Host.Outcome State Fault Refusal :=
  .next (checkedDuty .setDuty duty ((publishDuty duty s).yield.ack .setDuty) s)

/-- SET_DUTY_NOACK (R182): a success sends nothing. -/
def execSetDutyNoack (duty : U16) (s : State) : Host.Outcome State Fault Refusal :=
  .next (checkedDuty .setDutyNoack duty (publishDuty duty s) s)

/-- SET_DUTY_FAST (R183): the same effects as SET_DUTY_NOACK. -/
def execSetDutyFast (duty : U16) (s : State) : Host.Outcome State Fault Refusal :=
  .next (checkedDuty .setDutyFast duty (publishDuty duty s) s)

/-- STOP_OUTPUT (R184). -/
def execStopOutput (s : State) : Host.Outcome State Fault Refusal :=
  .next ((publishDuty 0 (s.setAutomation false).yield).yield.ack .stopOutput)

end Sys2Proof.Machine
end

