-- ==== Sys2Proof/Machine/Frames.lean ====
section
/-! DEFINITION. The device-to-host frames. Running one is the block's one `Send` of it (R84, R86,
R87, log 13). -/

namespace Sys2Proof.Machine

/-- RESP_ACK (R96). -/
def execRespAck (op : Byte) (s : State) : Host.Outcome State Fault Refusal :=
  .next (s.sendFrame (.respAck op))

/-- RESP_ERROR (R85). -/
def execRespError (op code : Byte) (s : State) : Host.Outcome State Fault Refusal :=
  .next (s.sendFrame (.respError op code))

/-- RESP_STATUS (R95). -/
def execRespStatus (fw : U16) (cfg : Config.ConfigRegs) (s : State) :
    Host.Outcome State Fault Refusal :=
  .next (s.sendFrame (.respStatus fw cfg))

/-- RESP_DUTY (R97). -/
def execRespDuty (duty : U16) (s : State) : Host.Outcome State Fault Refusal :=
  .next (s.sendFrame (.respDuty duty))

/-- TELEM_SNAPSHOT (R86; R151 line 5). -/
def execTelemSnapshot (samples : List Sample) (s : State) : Host.Outcome State Fault Refusal :=
  .next (s.sendFrame (.telemSnapshot samples))

/-- TELEM_TIMESYNC (R87; R154 line 4). -/
def execTelemTimesync (t : U32) (s : State) : Host.Outcome State Fault Refusal :=
  .next (s.sendFrame (.telemTimesync t))

end Sys2Proof.Machine
end

