-- ==== Sys2Proof/Machine/ModeToggles.lean ====
section
/-! DEFINITION. The mode toggles: START_STREAM, STOP_STREAM, START_AUTOMATION, STOP_AUTOMATION. -/

namespace Sys2Proof.Machine

/-- START_STREAM (R185). -/
def execStartStream (s : State) : Host.Outcome State Fault Refusal :=
  .next (((s.setWrapSeen s.tick.wrapCount).yield.setStreaming true).yield.ack .startStream)

/-- STOP_STREAM (R186). -/
def execStopStream (s : State) : Host.Outcome State Fault Refusal :=
  .next ((s.setStreaming false).yield.ack .stopStream)

/-- START_AUTOMATION (R187): the flag first, the start request after it (R68). -/
def execStartAutomation (s : State) : Host.Outcome State Fault Refusal :=
  .next ((s.setAutomation true).yield.bumpAutoGen.yield.ack .startAutomation)

/-- STOP_AUTOMATION (R188). -/
def execStopAutomation (s : State) : Host.Outcome State Fault Refusal :=
  .next ((s.setAutomation false).yield.ack .stopAutomation)

end Sys2Proof.Machine
end

