-- ==== Sys2Proof/Machine/Queries.lean ====
section
/-! DEFINITION. The queries: PING, GET_STATUS, GET_DUTY. -/

namespace Sys2Proof.Machine

/-- PING (R175): an acknowledgment and nothing else. -/
def execPing (s : State) : Host.Outcome State Fault Refusal := .next (s.ack .ping)

/-- GET_STATUS (R176): the status record of R95. -/
def execGetStatus (s : State) : Host.Outcome State Fault Refusal :=
  .next (s.sendFrame (.respStatus s.params.fwVersion s.cfg))

/-- GET_DUTY (R177): `duty_out` as it was when COOP read it; a tick may fall before the reply. -/
def execGetDuty (s : State) : Host.Outcome State Fault Refusal :=
  .next (s.yield.sendFrame (.respDuty s.tick.dutyOut))

end Sys2Proof.Machine
end

