-- ==== Sys2Proof/Machine/SettingsCommands.lean ====
section
/-! DEFINITION. SAVE_SETTINGS, SOFT_RESET, SAVE_AND_RESET. -/

namespace Sys2Proof.Machine

/-- `NvStore(SettingsRecord())` (R190). -/
def saveSettings (s : State) : State := s.nvStore (settingsRecord s.params s.cfg)

/-- SAVE_SETTINGS (R190). -/
def execSaveSettings (s : State) : Host.Outcome State Fault Refusal :=
  .next ((saveSettings s).yield.ack .saveSettings)

/-- SOFT_RESET (R191): the ACK is sent before the reset (R245). -/
def execSoftReset (s : State) : Host.Outcome State Fault Refusal :=
  .next (s.ack .softReset).yield.deviceReset

/-- SAVE_AND_RESET (R192). -/
def execSaveAndReset (s : State) : Host.Outcome State Fault Refusal :=
  .next ((saveSettings s).yield.ack .saveAndReset).yield.deviceReset

end Sys2Proof.Machine
end

