-- ==== Sys2Proof/Machine/TrajectoryCommands.lean ====
section
/-! DEFINITION. `Enqueue` (R122) and QUEUE_TRAJ_SEG. -/

namespace Sys2Proof.Machine

/-- `Enqueue(seg)` lines 2 to 4, `h` being the head that line 1 read (R122). The tail is read once;
by the time the segment is published it may be stale (R72). -/
def enqueueAt (h : Nat) (seg : Segment) (s : State) : State :=
  if s.nextSlot h = s.tick.qTail then s
  else (s.yield.writeQueue h seg).yield.setQHead (s.nextSlot h)

/-- `Enqueue(seg)` (R122), run by COOP. A full queue drops the segment silently. -/
def enqueue (seg : Segment) (s : State) : State := enqueueAt s.coop.qHead seg s.yield

/-- `NvStore(SettingsRecord())` when `SEG_FALLTHROUGH_SAVE` is set (R189, C10). -/
def fallthroughSave (s : State) : State :=
  if s.params.segFallthroughSave then (s.nvStore (settingsRecord s.params s.cfg)).yield else s

/-- QUEUE_TRAJ_SEG once its checks have passed (R189): the ACK is sent whether or not the queue had
room. -/
def acceptSegment (seg : Segment) (s : State) : State :=
  (fallthroughSave (enqueue seg s).yield).ack .queueTrajSeg

/-- QUEUE_TRAJ_SEG (R189): the shape check before the duty check (R222). -/
def execQueueTrajSeg (startDuty endDuty : U16) (shape : Byte) (duration : Option U32) (s : State) :
    Host.Outcome State Fault Refusal :=
  .next
    (match shapeOf shape with
     | none => s.raise .invalidPayload (opcodeByte .queueTrajSeg)
     | some sh =>
       if dutyLegal s.cfg startDuty && dutyLegal s.cfg endDuty then
         acceptSegment ⟨startDuty, endDuty, segDuration s.params duration, sh⟩ s
       else s.raise .invalidDuty (opcodeByte .queueTrajSeg))

end Sys2Proof.Machine
end

