-- ==== Sys2Proof/Machine/Dispatch.lean ====
section
/-! DEFINITION. The meaning of every instruction: one arm per constructor of `Instr`. -/

namespace Sys2Proof.Machine

def exec (i : Instr) (s : State) : Host.Outcome State Fault Refusal :=
  match i with
  -- queries (R175 to R177)
  | .ping => Sys2Proof.Machine.execPing s
  | .getStatus => Sys2Proof.Machine.execGetStatus s
  | .getDuty => Sys2Proof.Machine.execGetDuty s
  -- configuration setters (R178 to R180)
  | .setOutputPin pin => Sys2Proof.Machine.execSetOutputPin pin s
  | .setSensePin pin => Sys2Proof.Machine.execSetSensePin pin s
  | .setPwmFreq freq => Sys2Proof.Machine.execSetPwmFreq freq s
  -- duty commands (R181 to R184)
  | .setDuty duty => Sys2Proof.Machine.execSetDuty duty s
  | .setDutyNoack duty => Sys2Proof.Machine.execSetDutyNoack duty s
  | .setDutyFast duty => Sys2Proof.Machine.execSetDutyFast duty s
  | .stopOutput => Sys2Proof.Machine.execStopOutput s
  -- mode toggles (R185 to R188)
  | .startStream => Sys2Proof.Machine.execStartStream s
  | .stopStream => Sys2Proof.Machine.execStopStream s
  | .startAutomation => Sys2Proof.Machine.execStartAutomation s
  | .stopAutomation => Sys2Proof.Machine.execStopAutomation s
  -- trajectory (R189)
  | .queueTrajSeg startDuty endDuty shape duration => Sys2Proof.Machine.execQueueTrajSeg startDuty endDuty shape duration s
  -- settings and reset (R190 to R192)
  | .saveSettings => Sys2Proof.Machine.execSaveSettings s
  | .softReset => Sys2Proof.Machine.execSoftReset s
  | .saveAndReset => Sys2Proof.Machine.execSaveAndReset s
  -- responses (R85, R95 to R97)
  | .respAck op => Sys2Proof.Machine.execRespAck op s
  | .respError op code => Sys2Proof.Machine.execRespError op code s
  | .respStatus fw cfg => Sys2Proof.Machine.execRespStatus fw cfg s
  | .respDuty duty => Sys2Proof.Machine.execRespDuty duty s
  -- telemetry (R86, R87)
  | .telemSnapshot samples => Sys2Proof.Machine.execTelemSnapshot samples s
  | .telemTimesync t => Sys2Proof.Machine.execTelemTimesync t s

end Sys2Proof.Machine
end

