-- ==== Sys2Proof/Machine/CoopLoop.lean ====
section
/-! DEFINITION. COOP: the receiver (R170 to R174), the telemetry streamer (R150 to R154) and the
loop pass (R156). One function application is one COOP step. -/

namespace Sys2Proof.Machine

/-! ## Receiver -/

/-- `ReceiveLength()` (R171). -/
def State.receiveLength (s : State) : State :=
  let b := s.ext.inbound.headD 0
  let s1 := s.recvBytes 1
  if lengthValid s.params b then (s1.setPlen b).setPstate .awaitBody else s1

/-- The whole body and its checksum byte have arrived (R172). -/
def State.bodyComplete (s : State) : Bool := decide (s.coop.plen.toNat + 1 ≤ s.available)

/-- The received body (R172). -/
def State.bodyBytes (s : State) : List Byte := s.ext.inbound.take s.coop.plen.toNat

/-- The received checksum byte (R172). -/
def State.bodyChecksum (s : State) : Byte := s.ext.inbound.getD s.coop.plen.toNat 0

/-- The receiver has consumed the frame and is back in `AWAIT_LEN` (R172). -/
def State.afterBody (s : State) : State :=
  (s.recvBytes (s.coop.plen.toNat + 1)).setPstate .awaitLen

/-- The instruction a refused body runs: the error response it raises (R173, R174, R193). -/
def errorReply : DecodeError → Instr
  | .badChecksum op => .respError op (errorCode .invalidPayload)
  | .unknownOpcode op => .respError op (errorCode .unknownCommand)
  | .badArity op => .respError op (errorCode .invalidPayload)
  | .badLength b | .unknownId b | .badRecord b | .unknownType b =>
    .respError b (errorCode .invalidPayload)
  | .truncated | .badCrc => .respError 0 (errorCode .invalidPayload)

/-- The instruction a received body runs (R172 to R174). -/
def State.bodyInstr (s : State) : Instr :=
  match decodeBody s.bodyBytes s.bodyChecksum with
  | .ok i => i
  | .error e => errorReply e

/-- `ReceiveBody()` (R172): COOP is held until the body is complete (R157). -/
def State.receiveBody (s : State) : Host.Outcome State Fault Refusal :=
  if s.bodyComplete then exec s.bodyInstr s.afterBody else .next s

/-! ## Loop pass -/

/-- The top of `LoopPass()` (R156): receive, or go to the telemetry duties. -/
def State.loopPass (s : State) : Host.Outcome State Fault Refusal :=
  match s.coop.pstate with
  | .awaitBody => s.receiveBody
  | .awaitLen =>
    if 0 < s.available then .next s.receiveLength else .next (s.setPos .snapFlag)

/-- Where COOP goes after sending a frame: `TimeSync` after the snapshot, else a new pass (R156). -/
def afterSend : Instr → CoopPos
  | .telemSnapshot _ => .syncAvail
  | _ => .passStart

/-! ## Telemetry duties -/

/-- `Snapshot` line 1 (R151). -/
def State.snapFlagStep (s : State) : State :=
  if s.coop.streamingEnabled then s.setPos .snapAvail else s.setPos .syncAvail

/-- `Snapshot` line 2 (R151, R155). -/
def State.snapAvailStep (s : State) : State :=
  if 0 < s.available then s.setPos .syncAvail else s.setPos .snapEnter

/-- The end of the exclusion window of `Snapshot` line 3 (R151): the copy if a wrap is new, then
the pending tick (R218). -/
def State.snapCopyStep (s : State) : State :=
  if s.wrapPending then
    ((s.setWrapSeen s.tick.wrapCount).setPos (.send (.telemSnapshot s.tick.ring))).takePending
  else (s.setPos .syncAvail).takePending

/-- `TimeSync` line 1 (R154, R155). -/
def State.syncAvailStep (s : State) : State :=
  if 0 < s.available then s.setPos .passStart else s.setPos .syncClock

/-- `TimeSync` line 2 (R154). -/
def State.syncClockStep (s : State) : State :=
  if s.syncDue s.nowUs then s.setPos (.syncMark s.nowUs) else s.setPos .passStart

/-- `TimeSync` line 3 (R154). -/
def State.syncMarkStep (s : State) (t : U32) : State :=
  (s.setLastSync t).setPos (.send (.telemTimesync t))

/-- One step of COOP (R67), by its place in the loop pass (R52). -/
def State.coopStep (s : State) : Host.Outcome State Fault Refusal :=
  match s.coop.pos with
  | .passStart => s.loopPass
  | .snapFlag => .next s.snapFlagStep
  | .snapAvail => .next s.snapAvailStep
  | .snapEnter => .next (s.setPos .snapWindow)
  | .snapWindow => .next s.snapCopyStep
  | .syncAvail => .next s.syncAvailStep
  | .syncClock => .next s.syncClockStep
  | .syncMark t => .next (s.syncMarkStep t)
  | .send i => exec i (s.setPos (afterSend i))

/-- One event of the interleaving (R67). -/
def State.runEvent (s : State) : Event → Host.Outcome State Fault Refusal
  | .coop => s.coopStep
  | e => .next (s.outside e)

/-- The event the model takes when the script is empty: the agents alternate, and a tick's draw is
free (log 5, log 7). -/
def State.freeEvent (s : State) : Event :=
  match s.sched.turn with
  | .coop => .coop
  | .tick => .tick (Config.freeAdc s.cfg.sensePin s.sched.freeIdx)

/-- The other agent's turn. -/
def State.flipTurn (s : State) : State :=
  { s with sched.turn := match s.sched.turn with | .coop => .tick | .tick => .coop }

/-! ## Placing one frame (log 12) -/

/-- The receiver has accepted the length byte `l`, and the bytes after it stand first in the
inbound sequence: COOP's next step receives and runs them. -/
def State.placeCommand (s : State) (l : Byte) (rest : List Byte) : State :=
  { s with
    coop.pos := .passStart
    coop.pstate := .awaitBody
    coop.plen := l
    ext.inbound := rest ++ s.ext.inbound }

/-- COOP's next step runs the frame of a table word. -/
def State.placeWord (s : State) (nbits w : Nat) : State :=
  match tableFrame nbits w with
  | some (.hostToDevice, l :: rest) => s.placeCommand l rest
  | some (.deviceToHost, bytes) =>
    match decodeDeviceFrame Config.params bytes with
    | .ok (i, _) => s.setPos (.send i)
    | .error _ => s
  | _ => s

/-- The interleaving's next event is a COOP step. -/
def State.coopNext (s : State) : State := { s with sched.script := .coop :: s.sched.script }

end Sys2Proof.Machine
end

