-- ==== Sys2Proof/Machine/Step.lean ====
section
/-! DEFINITION. One step of the machine, and how the host of this row delivers one frame. -/

namespace Sys2Proof.Machine

/-- One step: the script's next event, or, when the script is empty, the event of the agent whose
turn it is after a free amount of time (R67, log 7). -/
def step (s : State) : Host.Outcome State Fault Refusal :=
  match s.sched.script with
  | e :: rest => ({ s with sched.script := rest } : State).runEvent e
  | [] => s.freeAdvance.flipTurn.runEvent s.freeEvent

/-- `s` with the frame of a table word where the next step fetches it (log 11, log 12). -/
def State.withFetchWord (s : State) (nbits w : Nat) : State := (s.placeWord nbits w).coopNext

end Sys2Proof.Machine
end

