-- ==== Sys2Proof/Safety.lean ====
section
/-! DEFINITION. What a safe state is, and the terms the claims use. -/

namespace Sys2Proof.Machine

/-- The active segment of a running trajectory (R42, R125, R128, R129): its ends are legal duties,
it is not past its last step, and a Linear segment's accumulator is `step * (end - start)`. -/
abbrev State.SegmentOk (s : State) : Prop :=
  s.tick.segStart.toNat ≤ maxDuty s.cfg ∧ s.tick.segEnd.toNat ≤ maxDuty s.cfg ∧
  (s.tick.segStep < s.tick.segTotal ∨ (s.tick.segTotal = 0 ∧ s.tick.segStep = 0)) ∧
  (s.tick.segShape = .linear →
    s.tick.segAcc.toInt =
      (s.tick.segStep.toNat : Int) * ((s.tick.segEnd.toNat : Int) - s.tick.segStart.toNat))

/-- A record whose duties are legal (R120). -/
abbrev segmentLegal (c : Config.ConfigRegs) (g : Segment) : Prop :=
  g.startDuty.toNat ≤ maxDuty c ∧ g.endDuty.toNat ≤ maxDuty c

/-- A place of the loop pass that a run can be in: a frame waiting to be sent is one of the
device's own frames and fits. -/
def placeOk (p : Config.Params) : CoopPos → Bool
  | .send i => i.fits p && decide (i.direction = .deviceToHost)
  | _ => true

/-- The machine's invariant: the ranges the spec states for its registers and arrays. -/
structure State.Inv (s : State) : Prop where
  /-- R8, R101. -/
  params : s.params.Valid
  /-- R28, R247. -/
  cfg : s.cfg.Valid s.params
  /-- R30, R31. -/
  period : s.periodUs = periodOf s.cfg.senseRate
  /-- R39. -/
  queueLength : s.coop.queue.length = s.params.qSlots
  /-- R43. -/
  ringLength : s.tick.ring.length = s.params.ringN
  /-- R40. -/
  head : s.coop.qHead < s.params.qSlots
  /-- R41. -/
  tail : s.tick.qTail < s.params.qSlots
  /-- R44. -/
  widx : s.tick.widx < s.params.ringN
  /-- R36. -/
  dutyCmd : s.coop.dutyCmd.toNat ≤ maxDuty s.cfg
  /-- R38, R143. -/
  dutyOut : s.tick.dutyOut.toNat ≤ maxDuty s.cfg
  /-- R39, R72. -/
  live : ∀ g ∈ s.liveSegments, segmentLegal s.cfg g
  /-- R42, R128. -/
  active : s.tick.autoActive = true → s.SegmentOk
  /-- R47. -/
  receiver : s.coop.pstate = .awaitBody → lengthValid s.params s.coop.plen = true
  /-- R52. -/
  place : placeOk s.params s.coop.pos = true
  /-- R218: a tick is pending only inside the exclusion window. -/
  pending : s.tickPending.isSome = true → s.windowOpen = true

/-- No event falls inside a handler: nothing is left of the script. -/
abbrev State.Quiet (s : State) : Prop := s.sched.script = []

/-- No tick is left in the script: inputs may still fall inside a handler. -/
def noTicks (script : List Event) : Bool :=
  script.all (fun e => match e with | .tick _ => false | _ => true)

/-- No input of HOST or ENV is left in the script: ticks and COOP steps only. -/
def noInputs (script : List Event) : Bool :=
  script.all (fun e => match e with | .tick _ | .coop => true | _ => false)

/-- A response frame (R84). -/
def isResponse : Instr → Bool
  | .respAck _ | .respError _ _ | .respStatus _ _ | .respDuty _ => true
  | _ => false

/-- The reply R194 gives a command: an error when its value check fails (R180 to R183, R189), none
for a successful SET_DUTY_NOACK or SET_DUTY_FAST, STATUS or DUTY for the queries, else an ACK. -/
def replyTo (s : State) : Instr → Option Instr
  | .ping => some (.respAck 0x01)
  | .getStatus => some (.respStatus s.params.fwVersion s.cfg)
  | .getDuty => some (.respDuty s.tick.dutyOut)
  | .setOutputPin _ => some (.respAck 0x10)
  | .setSensePin _ => some (.respAck 0x11)
  | .setPwmFreq f =>
    if f.toNat < s.params.pwmFreqMin ∨ s.params.pwmFreqMax < f.toNat then some (.respError 0x12 0x01)
    else some (.respAck 0x12)
  | .setDuty d => if maxDuty s.cfg < d.toNat then some (.respError 0x20 0x02) else some (.respAck 0x20)
  | .setDutyNoack d => if maxDuty s.cfg < d.toNat then some (.respError 0x21 0x02) else none
  | .setDutyFast d => if maxDuty s.cfg < d.toNat then some (.respError 0x22 0x02) else none
  | .stopOutput => some (.respAck 0x23)
  | .startStream => some (.respAck 0x30)
  | .stopStream => some (.respAck 0x31)
  | .startAutomation => some (.respAck 0x40)
  | .stopAutomation => some (.respAck 0x41)
  | .queueTrajSeg a b shape _ =>
    if 1 < shape.toNat then some (.respError 0x52 0x01)
    else if maxDuty s.cfg < a.toNat ∨ maxDuty s.cfg < b.toNat then some (.respError 0x52 0x02)
    else some (.respAck 0x52)
  | .saveSettings => some (.respAck 0x60)
  | .softReset => some (.respAck 0x70)
  | .saveAndReset => some (.respAck 0x71)
  | .respAck _ | .respError _ _ | .respStatus _ _ | .respDuty _ => none
  | .telemSnapshot _ | .telemTimesync _ => none

/-- The duties `n` calls of `Advance` return, and the state after them (R125). -/
def State.advances : Nat → State → List U16 × State
  | 0, s => ([], s)
  | n + 1, s =>
    let (v, s') := s.advance
    let (vs, s'') := State.advances n s'
    (v :: vs, s'')

/-- COOP takes its step next, and `rest` follows. -/
abbrev State.CoopDue (s : State) (rest : List Event) : Prop := s.sched.script = .coop :: rest

end Sys2Proof.Machine
end

