-- ==== Sys2Proof/Certificates/Slice0/Obligations.lean ====
section
/-! DEFINITION. The statements for the provers. Every statement about a state is about every value of
the parameters (R8), of the free values and, unless it says `Quiet` or gives the script, of the
interleaving. The script and the placing of a command handler in one `exec` are the model's own form
of R67 (logs 7, 8, 10); no statement rests on the turn the model takes with an empty script.
A statement that counts unread inbound bytes counts them as R12 does; with 2^32 of them or more that
count is the model's choice of what `Available()` returns (log 26). -/

open Sys2Proof Sys2Proof.Machine

/-! ## The wire -/

/-- Decoding an encoded command gives it back, with every operand (R81, R83, R92, R93). -/
def Obligations.HostFramesRoundTrip : Prop :=
  ∀ (p : Config.Params) (i : Instr) (rest : List Byte), p.Valid → i.direction = .hostToDevice →
    decodeHostFrame p (encode p i ++ rest) = .ok (i, rest)

/-- Decoding an encoded response or telemetry frame gives it back, with every operand (R84 to R87,
R95 to R97, R100). -/
def Obligations.DeviceFramesRoundTrip : Prop :=
  ∀ (p : Config.Params) (i : Instr) (rest : List Byte), p.Valid → i.fits p = true →
    i.direction = .deviceToHost → decodeDeviceFrame p (encode p i ++ rest) = .ok (i, rest)

/-- Each command has one encoding: bytes that decode are the encoding of what they decode to. -/
def Obligations.CommandEncodingIsUnique : Prop :=
  ∀ (p : Config.Params) (bytes : List Byte) (i : Instr) (rest : List Byte),
    decodeHostFrame p bytes = .ok (i, rest) → bytes = encode p i ++ rest

/-- A few frames of 95_test_vectors.md decode to the commands they stand for. -/
def Obligations.SpecFramesDecode : Prop :=
  decodeHostFrame Config.params [0x01, 0x01, 0x01] = .ok (.ping, []) ∧
  decodeHostFrame Config.params [0x02, 0x10, 0x05, 0x15] = .ok (.setOutputPin 5, []) ∧
  decodeHostFrame Config.params [0x05, 0x12, 0x00, 0x00, 0x4E, 0x20, 0x80] =
    .ok (.setPwmFreq 20000, []) ∧
  decodeHostFrame Config.params [0x03, 0x20, 0x08, 0x00, 0x28] = .ok (.setDuty 2048, []) ∧
  decodeHostFrame Config.params [0x06, 0x52, 0x00, 0x64, 0x03, 0xE8, 0x01, 0xA2] =
    .ok (.queueTrajSeg 100 1000 0x01 none, []) ∧
  decodeHostFrame Config.params [0x01, 0x71, 0x71] = .ok (.saveAndReset, [])

/-- R98: 238 of the 256 opcode values are unassigned, and a frame that carries one and passes its
checksum fails with UnknownCommand, whatever its payload. -/
def Obligations.UnassignedOpcodesRefused : Prop :=
  ((List.range 256).filter (fun n => (opcodeOf (BitVec.ofNat 8 n)).isNone)).length = 238 ∧
  ∀ (op : Byte) (payload : List Byte), op ∉ allOpcodes.map opcodeByte →
    decodeBody (op :: payload) (checksum8 (op :: payload)) = .error (.unknownOpcode op)

/-- R111: every single-bit flip in the checksummed region or in the checksum byte is caught. -/
def Obligations.SingleBitFlipCaught : Prop :=
  ∀ (s : List Byte) (i k : Nat) (h : i < s.length), k < 8 →
    checksum8 s ≠ checksum8 (s.set i (s[i] ^^^ (1#8 <<< k))) ∧
    checksum8 s ^^^ (1#8 <<< k) ≠ checksum8 s

/-- R110: the checksum does not depend on byte order, and trailing zero bytes do not change it. -/
def Obligations.ChecksumIgnoresOrder : Prop :=
  ∀ s t : List Byte, (s.Perm t → checksum8 s = checksum8 t) ∧
    checksum8 (s ++ [0x00]) = checksum8 s

/-- R113, R115: the residue of a telemetry frame with no errors is zero when the final XOR is zero,
whatever the polynomial and the initial value; with the polynomial of R113 no other last byte gives
a zero residue, so a host can check a frame either way. -/
def Obligations.CrcResidueIsZero : Prop :=
  ∀ (p : Config.Params) (s : List Byte) (c : Byte), p.crcXorOut = 0x00 →
    crc8 p (s ++ [crc8 p s]) = 0x00 ∧
    (p.crcPoly = 0x07 → (crc8 p (s ++ [c]) = 0x00 ↔ crc8 p s = c))

/-- R114: the check value of the CRC with the parameters of R113. -/
def Obligations.CrcCheckValue : Prop :=
  ∀ p : Config.Params, p.crcPoly = 0x07 → p.crcInit = 0x00 → p.crcXorOut = 0x00 →
    crc8 p [0x31, 0x32, 0x33, 0x34, 0x35, 0x36, 0x37, 0x38, 0x39] = 0xF4

/-- R101: a host tells a telemetry frame from a response frame by the first byte alone. -/
def Obligations.FirstByteTellsTelemetry : Prop :=
  ∀ (p : Config.Params) (i : Instr), p.Valid → i.direction = .deviceToHost →
    ((encode p i).head? = some p.telemMagic ↔
      (∃ samples, i = .telemSnapshot samples) ∨ (∃ t, i = .telemTimesync t))

/-- R96, R97: the bytes of the acknowledgment and of the duty response. -/
def Obligations.ResponseFrameBytes : Prop :=
  ∀ (p : Config.Params) (op : Byte) (d : U16),
    encode p (.respAck op) = [0x02, 0xA0, op, 0xA0 + op] ∧
    encode p (.respDuty d) =
      [0x03, 0xA3] ++ be16 d ++ [0xA3 + d.extractLsb' 8 8 + d.extractLsb' 0 8]

/-! ## The receiver, and what a step runs -/

/-- When COOP is at the top of a pass with a complete body that decodes to `i`, the step is `exec i`
at the state after the frame's bytes (R172). -/
def Obligations.StepRunsReceivedCommand : Prop :=
  ∀ (s : State) (rest : List Event) (i : Instr),
    s.CoopDue rest → s.coop.pos = .passStart → s.coop.pstate = .awaitBody →
    s.coop.plen.toNat + 1 ≤ s.ext.inbound.length →
    decodeBody (s.ext.inbound.take s.coop.plen.toNat) (s.ext.inbound.getD s.coop.plen.toNat 0) =
      .ok i →
    step s =
      exec i
        { s with
          sched.script := rest
          coop.pstate := .awaitLen
          ext.inbound := s.ext.inbound.drop (s.coop.plen.toNat + 1) }

/-- When a frame waits to be sent, the step is `exec` of it, and COOP goes on where R156 says:
TimeSync after a snapshot, else a new pass. That a waiting frame is an instruction is the model's
reading (log 13). -/
def Obligations.StepSendsWaitingFrame : Prop :=
  ∀ (s : State) (rest : List Event) (i : Instr),
    s.CoopDue rest → s.coop.pos = .send i →
    step s =
      exec i
        { s with
          sched.script := rest
          coop.pos :=
            (match i with
             | .telemSnapshot _ => CoopPos.syncAvail
             | _ => CoopPos.passStart) }

/-- R173: a checksum mismatch sends `[03, A1, body[0], 01, cs']` and does nothing else, whatever
the opcode byte is. -/
def Obligations.ChecksumMismatchReply : Prop :=
  ∀ (s : State) (rest : List Event),
    s.CoopDue rest → s.coop.pos = .passStart → s.coop.pstate = .awaitBody →
    s.coop.plen.toNat + 1 ≤ s.ext.inbound.length →
    s.bodyChecksum ≠ checksum8 s.bodyBytes →
    step s =
      .next
        { s with
          sched.script := rest
          coop.pstate := .awaitLen
          ext.inbound := s.ext.inbound.drop (s.coop.plen.toNat + 1)
          ext.outbound :=
            s.ext.outbound ++
              [0x03, 0xA1, s.bodyBytes.headD 0, 0x01, 0xA1 + s.bodyBytes.headD 0 + 0x01] }

/-- R193: an unassigned opcode in a frame that passed its checksum gives `[03, A1, op, 03, cs]` and
no other effect, before any arity check. -/
def Obligations.UnknownOpcodeReply : Prop :=
  ∀ (s : State) (rest : List Event),
    s.CoopDue rest → s.coop.pos = .passStart → s.coop.pstate = .awaitBody →
    s.coop.plen.toNat + 1 ≤ s.ext.inbound.length →
    s.bodyChecksum = checksum8 s.bodyBytes →
    s.bodyBytes.headD 0 ∉ allOpcodes.map opcodeByte →
    step s =
      .next
        { s with
          sched.script := rest
          coop.pstate := .awaitLen
          ext.inbound := s.ext.inbound.drop (s.coop.plen.toNat + 1)
          ext.outbound :=
            s.ext.outbound ++
              [0x03, 0xA1, s.bodyBytes.headD 0, 0x03, 0xA1 + s.bodyBytes.headD 0 + 0x03] }

/-- R92, R174: a payload length that is no arity of its opcode gives InvalidPayload and no other
effect. -/
def Obligations.WrongArityReply : Prop :=
  ∀ (s : State) (rest : List Event) (o : Opcode),
    s.CoopDue rest → s.coop.pos = .passStart → s.coop.pstate = .awaitBody →
    s.coop.plen.toNat + 1 ≤ s.ext.inbound.length →
    s.bodyChecksum = checksum8 s.bodyBytes →
    s.bodyBytes.headD 0 = opcodeByte o → s.bodyBytes.tail.length ∉ arities o →
    step s =
      .next
        { s with
          sched.script := rest
          coop.pstate := .awaitLen
          ext.inbound := s.ext.inbound.drop (s.coop.plen.toNat + 1)
          ext.outbound :=
            s.ext.outbound ++ [0x03, 0xA1, opcodeByte o, 0x01, 0xA1 + opcodeByte o + 0x01] }

/-- R171: a valid length byte starts a body, an invalid one is discarded with no reply. -/
def Obligations.LengthByteReceived : Prop :=
  ∀ (s : State) (rest : List Event) (b : Byte) (more : List Byte),
    s.CoopDue rest → s.coop.pos = .passStart → s.coop.pstate = .awaitLen →
    s.ext.inbound = b :: more →
    step s =
      if 1 ≤ b.toNat ∧ b.toNat ≤ s.params.maxFrame - 2 then
        .next
          { s with
            sched.script := rest
            ext.inbound := more
            coop.plen := b
            coop.pstate := .awaitBody }
      else .next { s with sched.script := rest, ext.inbound := more }

/-- R157, R172: with a body that is not complete, COOP's pass has no effect, and a tick still
runs. -/
def Obligations.PartialBodyHolds : Prop :=
  ∀ (s : State) (rest : List Event), s.coop.pos = .passStart → s.coop.pstate = .awaitBody →
    s.ext.inbound.length < s.coop.plen.toNat + 1 →
    (s.CoopDue rest → step s = .next { s with sched.script := rest }) ∧
    (∀ c : U16, s.sched.script = .tick c :: rest →
      step s = .next (({ s with sched.script := rest } : State).tickStep c))

/-- R257, with ticks anywhere between: zeros met in `AWAIT_LEN` are discarded, one at each COOP step;
in `AWAIT_BODY`, with no byte of the frame received before them, `MAX_FRAME - 1` zeros bring the
receiver back to `AWAIT_LEN` with one UnknownCommand reply. Nothing but a tick writes anything
else. -/
def Obligations.ZerosRecoverFraming : Prop :=
  ∀ s : State, s.coop.pos = .passStart → noInputs s.sched.script = true →
    (s.coop.pstate = .awaitLen →
      s.ext.inbound = List.replicate (s.sched.script.count .coop) 0 →
      ∃ t, Host.Core.run Sys2Proof.core s.sched.script.length s = .next t ∧
        t =
          { s with
            tick := t.tick
            ext.inbound := []
            ext.trace := t.ext.trace
            sched.script := [] } ∧
        (noTicks s.sched.script = true → t.tick = s.tick ∧ t.ext.trace = s.ext.trace)) ∧
    (s.coop.pstate = .awaitBody → lengthValid s.params s.coop.plen = true →
      s.ext.inbound = List.replicate (s.params.maxFrame - 1) 0 →
      s.sched.script.count .coop = s.params.maxFrame - 1 - s.coop.plen.toNat →
      ∃ t, Host.Core.run Sys2Proof.core s.sched.script.length s = .next t ∧
        t =
          { s with
            coop.pstate := .awaitLen
            tick := t.tick
            ext.inbound := []
            ext.outbound := s.ext.outbound ++ [0x03, 0xA1, 0x00, 0x03, 0xA4]
            ext.trace := t.ext.trace
            sched.script := [] } ∧
        (noTicks s.sched.script = true → t.tick = s.tick ∧ t.ext.trace = s.ext.trace))

/-- R257: stale bytes of a frame that is not complete, then `MAX_FRAME - 1` zeros: whatever command
or error they form, and whatever ticks fall inside it, the next COOP step completes the frame and
leaves the receiver in `AWAIT_LEN` before zeros only, with at most one reply. -/
def Obligations.ZerosCompleteStaleFrame : Prop :=
  ∀ (s : State) (rest : List Event) (stale : List Byte),
    s.CoopDue rest → noInputs rest = true →
    s.coop.pos = .passStart → s.coop.pstate = .awaitBody →
    lengthValid s.params s.coop.plen = true → stale.length ≤ s.coop.plen.toNat →
    s.ext.inbound = stale ++ List.replicate (s.params.maxFrame - 1) 0 →
    ∃ t, step s = .next t ∧ t.coop.pos = .passStart ∧ t.coop.pstate = .awaitLen ∧
      t.ext.inbound =
        List.replicate (stale.length + (s.params.maxFrame - 1) - (s.coop.plen.toNat + 1)) 0 ∧
      (t.ext.outbound = s.ext.outbound ∨
        ∃ r, isResponse r = true ∧ t.ext.outbound = s.ext.outbound ++ encode s.params r)

/-! ## Agents -/

/-- R20, R29: single writer. A tick writes no register of COOP and no configuration; an input writes
no register of the block; a COOP step in whose course no tick falls writes no register of TICK,
unless it resets the block, which writes all of them. -/
def Obligations.SingleWriter : Prop :=
  ∀ (s t : State) (e : Event) (rest : List Event), s.sched.script = e :: rest → step s = .next t →
    (e ≠ .coop → t.coop = s.coop ∧ t.cfg = s.cfg ∧ t.periodUs = s.periodUs) ∧
    ((∀ c, e ≠ .tick c) → noTicks rest = true → s.tickPending = none →
      t.tick = s.tick ∨ t.tick = TickRegs.reset s.params)

/-- R49, R50, R234, R237: what an input does, whenever it falls between two steps. HOST appends bytes
to the inbound sequence or removes the oldest outbound bytes; the microsecond counter moves forward
modulo 2^32; the store's content is replaced. Nothing else changes. -/
def Obligations.InputsChangeExternalState : Prop :=
  ∀ (s : State) (rest : List Event) (bytes : List Byte) (n : Nat) (d : U32),
    (s.sched.script = .host bytes :: rest →
      step s = .next { s with sched.script := rest, ext.inbound := s.ext.inbound ++ bytes }) ∧
    (s.sched.script = .hostRead n :: rest →
      step s = .next { s with sched.script := rest, ext.outbound := s.ext.outbound.drop n }) ∧
    (s.sched.script = .time d :: rest →
      step s = .next { s with sched.script := rest, ext.timeBase := s.ext.timeBase + d }) ∧
    (s.sched.script = .envStore bytes :: rest →
      step s = .next { s with sched.script := rest, ext.store := bytes })

/-- R215, R217, R8: no error is fatal and none stops an agent, and the parameters never change: every
step answers a next state, with the same parameters. -/
def Obligations.StepAlwaysGoesOn : Prop :=
  ∀ s : State, ∃ t, step s = .next t ∧ t.params = s.params

/-- Every step keeps the invariant: array lengths, index ranges, ConfigValid, every duty at most
`max_duty`, the active segment's bounds, the receiver's length (R25, R28, R31, R36, R38 to R44, R47,
R128). -/
def Obligations.StepKeepsInvariant : Prop :=
  ∀ s t : State, s.Inv → step s = .next t → t.Inv

/-- The machine after power-on reset meets the invariant, whatever the store holds (R54, R247). -/
def Obligations.ResetMeetsInvariant : Prop := State.reset.Inv

/-! ## The tick -/

/-- R133, R140 to R142: which duty a tick drives. Automation disabled, or enabled with no active
segment and none to start: the tick ends automation, takes any start request, and drives the pending
command or the held duty. Automation active after the start-request check: it drives what Advance
answers and leaves `duty_seen` alone. COOP's registers and the configuration stay. -/
def Obligations.TickChoosesDuty : Prop :=
  ∀ (s : State) (c : U16),
    (s.tickStep c).coop = s.coop ∧ (s.tickStep c).cfg = s.cfg ∧
    (s.tickStep c).periodUs = s.periodUs ∧
    (s.coop.automationEnabled = false ∨
        (s.startRequested = false ∧ s.tick.autoActive = false) ∨
        (s.startRequested = true ∧ s.queueEmpty = true) →
      (s.tickStep c).tick =
        { s.tick with
          autoActive := false
          autoSeen := s.coop.autoGen
          dutySeen := s.coop.dutyGen
          dutyOut := if s.coop.dutyGen = s.tick.dutySeen then s.tick.dutyOut else s.coop.dutyCmd
          ring := (s.tickStep c).tick.ring
          widx := (s.tickStep c).tick.widx
          wrapCount := (s.tickStep c).tick.wrapCount }) ∧
    (s.coop.automationEnabled = true → s.startRequested = false → s.tick.autoActive = true →
      (s.tickStep c).tick.dutyOut = s.advance.1 ∧ (s.tickStep c).tick.dutySeen = s.tick.dutySeen ∧
      (s.tickStep c).tick.autoSeen = s.tick.autoSeen) ∧
    (s.coop.automationEnabled = true → s.startRequested = true → s.queueEmpty = false →
      (s.tickStep c).tick.dutyOut =
        (({ s with tick.autoSeen := s.coop.autoGen } : State).loadSegment
          (s.readQueue s.tick.qTail)).advance.1 ∧
      (s.tickStep c).tick.dutySeen = s.tick.dutySeen ∧
      (s.tickStep c).tick.autoSeen = s.coop.autoGen)

/-- R143 to R145: every tick, in whatever mode, calls PwmWrite once with the new `duty_out`, then
stores the pair of that duty and the sampled current in slot `widx`, moves `widx` on, and counts a
wrap when it returns to 0. -/
def Obligations.TickDrivesAndSamples : Prop :=
  ∀ (s : State) (c : U16),
    (s.tickStep c).ext =
      { s.ext with
        trace := s.ext.trace ++ [.pwmWrite s.cfg.outPin (s.tickStep c).tick.dutyOut] } ∧
    (s.tickStep c).tick.ring =
      s.tick.ring.set s.tick.widx ⟨(s.tickStep c).tick.dutyOut, adcInRange s.cfg c⟩ ∧
    (s.tickStep c).tick.widx = (s.tick.widx + 1) % s.params.ringN ∧
    (s.tickStep c).tick.wrapCount =
      if (s.tick.widx + 1) % s.params.ringN = 0 then s.tick.wrapCount + 1 else s.tick.wrapCount

/-- R27, R144: a sampled current is in `[0, 2^sense_res - 1]`, and every value of that range can be
drawn. Which draw gives a value is the model's choice (log 5). -/
def Obligations.SampleInRange : Prop :=
  ∀ (p : Config.Params) (cfg : Config.ConfigRegs) (c : U16), cfg.Valid p →
    (adcInRange cfg c).toNat ≤ 2 ^ cfg.senseRes.toNat - 1 ∧
    (c.toNat ≤ 2 ^ cfg.senseRes.toNat - 1 → adcInRange cfg c = c)

/-- R143: every duty a tick drives is at most `max_duty`. -/
def Obligations.TickDutyIsLegal : Prop :=
  ∀ (s : State) (c : U16), s.Inv →
    ∃ d : U16, d.toNat ≤ 2 ^ s.cfg.pwmRes.toNat - 1 ∧
      (s.tickStep c).ext.trace = s.ext.trace ++ [.pwmWrite s.cfg.outPin d]

/-! ## The Trajectory Engine -/

/-- R122 to R124: seen as the list of its live segments, the queue is a FIFO of capacity
`Q_SLOTS - 1`: Enqueue puts at the end or, when full, changes nothing; Start takes the front. -/
def Obligations.QueueIsFifo : Prop :=
  ∀ (s : State) (seg : Segment), s.Inv → s.Quiet →
    s.liveSegments.length ≤ s.params.qSlots - 1 ∧
    (s.liveSegments.length < s.params.qSlots - 1 →
      (enqueue seg s).liveSegments = s.liveSegments ++ [seg] ∧ (enqueue seg s).tick = s.tick) ∧
    (s.liveSegments.length = s.params.qSlots - 1 → enqueue seg s = s) ∧
    (s.liveSegments = [] → s.start = (false, { s with tick.autoActive := false })) ∧
    (∀ g r, s.liveSegments = g :: r →
      ∃ t, s.start = (true, t) ∧ t.liveSegments = r ∧ t.tick.autoActive = true ∧
        t.tick.segStart = g.startDuty ∧ t.tick.segEnd = g.endDuty ∧ t.tick.segShape = g.shape ∧
        t.tick.segTotal = g.duration / s.periodUs ∧ t.tick.segStep = 0 ∧ t.tick.segAcc = 0)

/-- R72, R122, R123, whatever ticks fall inside an Enqueue: it drops the segment exactly when the
queue is still full where it reads the tail, and then no register of COOP and no queued segment
changes. Otherwise, so whenever the queue is not full at its start, the live segments are what ticks
have left of the old ones, in order, and then the new one. -/
def Obligations.EnqueueUnderInterleaving : Prop :=
  ∀ (s : State) (seg : Segment), s.Inv →
    (s.queueFull = false → s.yield.queueFull = false) ∧
    (s.yield.queueFull = true →
      enqueue seg s = s.yield ∧ (enqueue seg s).coop = s.coop ∧
      (enqueue seg s).liveSegments = s.liveSegments) ∧
    (s.yield.queueFull = false →
      (enqueue seg s).coop =
        { s.coop with
          queue := s.coop.queue.set s.coop.qHead seg
          qHead := (s.coop.qHead + 1) % s.params.qSlots } ∧
      ∃ n, (enqueue seg s).liveSegments = s.liveSegments.drop n ++ [seg])

/-- R126, R127, R131: the T calls of Advance on a freshly started segment of T steps return `end`
each time for a Step, `start + trunc_div(k * (end - start), T)` for a Linear; with an empty queue
automation is then inactive. -/
def Obligations.SegmentRun : Prop :=
  ∀ s : State, 1 ≤ s.params.qSlots → s.tick.autoActive = true → s.SegmentOk →
    s.tick.segStep = 0 → 0 < s.tick.segTotal.toNat →
    (s.advances s.tick.segTotal.toNat).1.map (fun v => (v.toNat : Int)) =
      (List.range s.tick.segTotal.toNat).map (fun k =>
        match s.tick.segShape with
        | .step => (s.tick.segEnd.toNat : Int)
        | .linear =>
          s.tick.segStart.toNat +
            Int.tdiv (((k : Int) + 1) * ((s.tick.segEnd.toNat : Int) - s.tick.segStart.toNat))
              s.tick.segTotal.toNat) ∧
    (s.queueEmpty = true → (s.advances s.tick.segTotal.toNat).2.tick.autoActive = false)

/-- R132: the values of a Linear segment are monotone, end with exactly `end`, differ from the ideal
by less than 1 at every k, and the first is `start` only when `|end - start| < T`. -/
def Obligations.RampProperties : Prop :=
  ∀ (a b : U16) (T : U32) (v : Nat → Int),
    (∀ k, v k =
      ((linearValue a (BitVec.ofInt 64 ((k : Int) * ((b.toNat : Int) - a.toNat))) T).toNat : Int)) →
    1 ≤ T.toNat →
    (∀ k, 1 ≤ k → k < T.toNat →
      (a.toNat ≤ b.toNat → v k ≤ v (k + 1)) ∧ (b.toNat < a.toNat → v (k + 1) ≤ v k)) ∧
    v T.toNat = b.toNat ∧
    (∀ k : Nat, 1 ≤ k → k ≤ T.toNat →
      |(T.toNat : Int) * (v k - a.toNat) - (k : Int) * ((b.toNat : Int) - a.toNat)| < T.toNat) ∧
    v 1 = (a.toNat : Int) + Int.tdiv ((b.toNat : Int) - a.toNat) T.toNat ∧
    (v 1 = a.toNat ↔ |(b.toNat : Int) - a.toNat| < T.toNat)

/-- R130: the call that takes a segment's last step starts the next queued one. -/
def Obligations.ChainingHasNoIdleTick : Prop :=
  ∀ (s : State) (g : Segment) (r : List Segment), s.Inv → s.tick.autoActive = true →
    s.tick.segStep + 1 = s.tick.segTotal → s.liveSegments = g :: r →
    s.advance.1 = s.segValue ∧
    s.advance.2.liveSegments = r ∧ s.advance.2.tick.autoActive = true ∧
    s.advance.2.tick.segStart = g.startDuty ∧ s.advance.2.tick.segEnd = g.endDuty ∧
    s.advance.2.tick.segShape = g.shape ∧ s.advance.2.tick.segTotal = g.duration / s.periodUs ∧
    s.advance.2.tick.segStep = 0

/-- R131: the last step of the last segment outputs `end`, ends automation, and later ticks hold it
until a new duty command or start request. -/
def Obligations.EndOfQueueHolds : Prop :=
  ∀ (s : State) (c : U16), s.Inv → s.coop.automationEnabled = true → s.startRequested = false →
    s.tick.autoActive = true → s.tick.segStep + 1 = s.tick.segTotal → s.liveSegments = [] →
    (s.tickStep c).tick.dutyOut = s.tick.segEnd ∧ (s.tickStep c).tick.autoActive = false ∧
    (s.dutyPending = false →
      ∀ c', ((s.tickStep c).tickStep c').tick.dutyOut = s.tick.segEnd)

/-- R129: a zero-step segment is left in the same call. Behind it zero-step segments only: the last
one's `end` is output and automation ends. A segment `g` of at least one step behind them: `g`'s
first value is output, and `g` is active after its first step or, when that was its last, `Start` has
run (R130, R131). -/
def Obligations.ZeroStepSegmentsSkipped : Prop :=
  ∀ s : State, s.Inv → s.tick.autoActive = true → s.tick.segTotal = 0 →
    ((∀ g ∈ s.liveSegments, g.duration / s.periodUs = 0) →
      s.advance.1 = ((s.liveSegments.map (·.endDuty)).getLastD s.tick.segEnd) ∧
      s.advance.2.tick.autoActive = false ∧ s.advance.2.liveSegments = []) ∧
    (∀ z g r T, s.liveSegments = z ++ g :: r → (∀ x ∈ z, x.duration / s.periodUs = 0) →
      T = g.duration / s.periodUs → T ≠ 0 →
      (s.advance.1.toNat : Int) =
        (match g.shape with
         | .step => (g.endDuty.toNat : Int)
         | .linear =>
           g.startDuty.toNat +
             Int.tdiv ((g.endDuty.toNat : Int) - g.startDuty.toNat) T.toNat) ∧
      (T ≠ 1 →
        s.advance.2.liveSegments = r ∧ s.advance.2.tick.autoActive = true ∧
        s.advance.2.tick.segStart = g.startDuty ∧ s.advance.2.tick.segEnd = g.endDuty ∧
        s.advance.2.tick.segShape = g.shape ∧ s.advance.2.tick.segTotal = T ∧
        s.advance.2.tick.segStep = 1) ∧
      (T = 1 → r = [] →
        s.advance.2.liveSegments = [] ∧ s.advance.2.tick.autoActive = false) ∧
      (∀ g' r', T = 1 → r = g' :: r' →
        s.advance.2.liveSegments = r' ∧ s.advance.2.tick.autoActive = true ∧
        s.advance.2.tick.segStart = g'.startDuty ∧ s.advance.2.tick.segEnd = g'.endDuty ∧
        s.advance.2.tick.segShape = g'.shape ∧
        s.advance.2.tick.segTotal = g'.duration / s.periodUs ∧ s.advance.2.tick.segStep = 0))

/-! ## Commands -/

/-- R175 to R177: the queries reply and write nothing. GET_DUTY reports the duty as it was when its
handler began, whatever falls before the reply. -/
def Obligations.QueriesReply : Prop :=
  ∀ s : State,
    exec .ping s =
      .next { s with ext.outbound := s.ext.outbound ++ [0x02, 0xA0, 0x01, 0xA1] } ∧
    (∀ r, r = be16 s.params.fwVersion ++ [s.cfg.outPin, s.cfg.sensePin] ++ be32 s.cfg.pwmFreq ++
        [s.cfg.pwmRes] ++ be32 s.cfg.senseRate ++ [s.cfg.senseRes] →
      exec .getStatus s =
        .next
          { s with
            ext.outbound :=
              s.ext.outbound ++ [0x0F, 0xA2] ++ r ++ [checksum8 (0xA2 :: r)] }) ∧
    (s.Quiet →
      exec .getDuty s =
        .next
          { s with
            ext.outbound :=
              s.ext.outbound ++ [0x03, 0xA3] ++ be16 s.tick.dutyOut ++
                [checksum8 (0xA3 :: be16 s.tick.dutyOut)] }) ∧
    (∃ t n, exec .getDuty s = .next t ∧ t.coop = s.coop ∧ t.cfg = s.cfg ∧
      t.ext.outbound = s.ext.outbound.drop n ++ encode s.params (.respDuty s.tick.dutyOut))

/-- R178 to R180, with nothing falling inside the handler: the register, the peripheral call and the
ACK, and nothing else. -/
def Obligations.SettersExactly : Prop :=
  ∀ (s : State) (pin : Byte) (f : U32), s.Quiet →
    exec (.setOutputPin pin) s =
      .next
        { s with
          cfg.outPin := pin
          ext.trace := s.ext.trace ++ [.pwmConfigure pin s.cfg.pwmFreq s.cfg.pwmRes]
          ext.outbound := s.ext.outbound ++ [0x02, 0xA0, 0x10, 0xB0] } ∧
    exec (.setSensePin pin) s =
      .next
        { s with
          cfg.sensePin := pin
          ext.outbound := s.ext.outbound ++ [0x02, 0xA0, 0x11, 0xB1] } ∧
    (s.params.pwmFreqMin ≤ f.toNat → f.toNat ≤ s.params.pwmFreqMax →
      exec (.setPwmFreq f) s =
        .next
          { s with
            cfg.pwmFreq := f
            ext.trace := s.ext.trace ++ [.pwmConfigure s.cfg.outPin f s.cfg.pwmRes]
            ext.outbound := s.ext.outbound ++ [0x02, 0xA0, 0x12, 0xB2] })

/-- R178 to R180, whatever falls inside the handler: the configuration and COOP's registers, and the
ACK last. -/
def Obligations.SettersUnderInterleaving : Prop :=
  ∀ (s : State) (pin : Byte) (f : U32),
    (∃ t n, exec (.setOutputPin pin) s = .next t ∧ t.cfg = { s.cfg with outPin := pin } ∧
      t.coop = s.coop ∧ t.periodUs = s.periodUs ∧
      .pwmConfigure pin s.cfg.pwmFreq s.cfg.pwmRes ∈ t.ext.trace ∧
      t.ext.outbound = s.ext.outbound.drop n ++ [0x02, 0xA0, 0x10, 0xB0]) ∧
    (∃ t n, exec (.setSensePin pin) s = .next t ∧ t.cfg = { s.cfg with sensePin := pin } ∧
      t.coop = s.coop ∧ t.periodUs = s.periodUs ∧
      t.ext.outbound = s.ext.outbound.drop n ++ [0x02, 0xA0, 0x11, 0xB1]) ∧
    (freqLegal s.params f = true →
      ∃ t n, exec (.setPwmFreq f) s = .next t ∧ t.cfg = { s.cfg with pwmFreq := f } ∧
        t.coop = s.coop ∧ t.periodUs = s.periodUs ∧
        .pwmConfigure s.cfg.outPin f s.cfg.pwmRes ∈ t.ext.trace ∧
        t.ext.outbound = s.ext.outbound.drop n ++ [0x02, 0xA0, 0x12, 0xB2])

/-- R181 to R184, with nothing falling inside the handler: the registers, the reply where the
variant has one, and nothing else. -/
def Obligations.DutyCommandsExactly : Prop :=
  ∀ (s : State) (d : U16), s.Quiet → d.toNat ≤ 2 ^ s.cfg.pwmRes.toNat - 1 →
    exec (.setDuty d) s =
      .next
        { s with
          coop.dutyCmd := d
          coop.dutyGen := s.coop.dutyGen + 1
          ext.outbound := s.ext.outbound ++ [0x02, 0xA0, 0x20, 0xC0] } ∧
    exec (.setDutyNoack d) s =
      .next { s with coop.dutyCmd := d, coop.dutyGen := s.coop.dutyGen + 1 } ∧
    exec (.setDutyFast d) s =
      .next { s with coop.dutyCmd := d, coop.dutyGen := s.coop.dutyGen + 1 } ∧
    exec .stopOutput s =
      .next
        { s with
          coop.automationEnabled := false
          coop.dutyCmd := 0
          coop.dutyGen := s.coop.dutyGen + 1
          ext.outbound := s.ext.outbound ++ [0x02, 0xA0, 0x23, 0xC3] }

/-- R181 to R184, whatever falls inside the handler: COOP's registers, the configuration, and the
reply. -/
def Obligations.DutyCommandsUnderInterleaving : Prop :=
  ∀ (s : State) (d : U16), dutyLegal s.cfg d = true →
    (∃ t n, exec (.setDuty d) s = .next t ∧ t.cfg = s.cfg ∧
      t.coop = { s.coop with dutyCmd := d, dutyGen := s.coop.dutyGen + 1 } ∧
      t.ext.outbound = s.ext.outbound.drop n ++ [0x02, 0xA0, 0x20, 0xC0]) ∧
    (∃ t n, exec (.setDutyNoack d) s = .next t ∧ t.cfg = s.cfg ∧
      t.coop = { s.coop with dutyCmd := d, dutyGen := s.coop.dutyGen + 1 } ∧
      t.ext.outbound = s.ext.outbound.drop n) ∧
    (∃ t n, exec (.setDutyFast d) s = .next t ∧ t.cfg = s.cfg ∧
      t.coop = { s.coop with dutyCmd := d, dutyGen := s.coop.dutyGen + 1 } ∧
      t.ext.outbound = s.ext.outbound.drop n) ∧
    (∃ t n, exec .stopOutput s = .next t ∧ t.cfg = s.cfg ∧
      t.coop =
        { s.coop with
          automationEnabled := false, dutyCmd := 0, dutyGen := s.coop.dutyGen + 1 } ∧
      t.ext.outbound = s.ext.outbound.drop n ++ [0x02, 0xA0, 0x23, 0xC3])

/-- R180 to R183, R189, R211, R212, R222: an operand that fails its handler's value check is refused
with the error of that check, and with no other effect: a frequency out of range is InvalidPayload; a
duty above `max_duty` is InvalidDuty for all three setters, the unacknowledged ones too; for a
segment an illegal shape is InvalidPayload whatever the duties, and with a legal shape a duty above
`max_duty` is InvalidDuty. -/
def Obligations.ValueChecksRefuse : Prop :=
  ∀ s : State,
    (∀ f : U32, f.toNat < s.params.pwmFreqMin ∨ s.params.pwmFreqMax < f.toNat →
      exec (.setPwmFreq f) s =
        .next { s with ext.outbound := s.ext.outbound ++ [0x03, 0xA1, 0x12, 0x01, 0xB4] }) ∧
    (∀ d : U16, 2 ^ s.cfg.pwmRes.toNat - 1 < d.toNat →
      exec (.setDuty d) s =
        .next { s with ext.outbound := s.ext.outbound ++ [0x03, 0xA1, 0x20, 0x02, 0xC3] } ∧
      exec (.setDutyNoack d) s =
        .next { s with ext.outbound := s.ext.outbound ++ [0x03, 0xA1, 0x21, 0x02, 0xC4] } ∧
      exec (.setDutyFast d) s =
        .next { s with ext.outbound := s.ext.outbound ++ [0x03, 0xA1, 0x22, 0x02, 0xC5] }) ∧
    (∀ (a b : U16) (code : Byte) (dur : Option U32),
      (1 < code.toNat →
        exec (.queueTrajSeg a b code dur) s =
          .next { s with ext.outbound := s.ext.outbound ++ [0x03, 0xA1, 0x52, 0x01, 0xF4] }) ∧
      (code.toNat ≤ 1 →
        2 ^ s.cfg.pwmRes.toNat - 1 < a.toNat ∨ 2 ^ s.cfg.pwmRes.toNat - 1 < b.toNat →
        exec (.queueTrajSeg a b code dur) s =
          .next { s with ext.outbound := s.ext.outbound ++ [0x03, 0xA1, 0x52, 0x02, 0xF5] }))

/-- R185 to R188, with nothing falling inside the handler. -/
def Obligations.TogglesExactly : Prop :=
  ∀ s : State, s.Quiet →
    exec .startStream s =
      .next
        { s with
          coop.wrapSeen := s.tick.wrapCount
          coop.streamingEnabled := true
          ext.outbound := s.ext.outbound ++ [0x02, 0xA0, 0x30, 0xD0] } ∧
    exec .stopStream s =
      .next
        { s with
          coop.streamingEnabled := false
          ext.outbound := s.ext.outbound ++ [0x02, 0xA0, 0x31, 0xD1] } ∧
    exec .startAutomation s =
      .next
        { s with
          coop.automationEnabled := true
          coop.autoGen := s.coop.autoGen + 1
          ext.outbound := s.ext.outbound ++ [0x02, 0xA0, 0x40, 0xE0] } ∧
    exec .stopAutomation s =
      .next
        { s with
          coop.automationEnabled := false
          ext.outbound := s.ext.outbound ++ [0x02, 0xA0, 0x41, 0xE1] }

/-- R185 to R188, whatever falls inside the handler. -/
def Obligations.TogglesUnderInterleaving : Prop :=
  ∀ s : State,
    (∃ t n, exec .startStream s = .next t ∧ t.cfg = s.cfg ∧
      t.coop = { s.coop with wrapSeen := s.tick.wrapCount, streamingEnabled := true } ∧
      t.ext.outbound = s.ext.outbound.drop n ++ [0x02, 0xA0, 0x30, 0xD0]) ∧
    (∃ t n, exec .stopStream s = .next t ∧ t.cfg = s.cfg ∧
      t.coop = { s.coop with streamingEnabled := false } ∧
      t.ext.outbound = s.ext.outbound.drop n ++ [0x02, 0xA0, 0x31, 0xD1]) ∧
    (∃ t n, exec .startAutomation s = .next t ∧ t.cfg = s.cfg ∧
      t.coop = { s.coop with automationEnabled := true, autoGen := s.coop.autoGen + 1 } ∧
      t.ext.outbound = s.ext.outbound.drop n ++ [0x02, 0xA0, 0x40, 0xE0]) ∧
    (∃ t n, exec .stopAutomation s = .next t ∧ t.cfg = s.cfg ∧
      t.coop = { s.coop with automationEnabled := false } ∧
      t.ext.outbound = s.ext.outbound.drop n ++ [0x02, 0xA0, 0x41, 0xE1])

/-- R189, R93, R94, C10, with nothing falling inside the handler: the segment goes into the head's
slot when there is room, the store is written only when SEG_FALLTHROUGH_SAVE is set, the ACK is sent
in both cases, and nothing else changes. -/
def Obligations.SegmentAcceptedExactly : Prop :=
  ∀ (s : State) (a b : U16) (code : Byte) (sh : Shape) (dur : Option U32), s.Quiet →
    (code = 0x00 ∧ sh = .step ∨ code = 0x01 ∧ sh = .linear) →
    a.toNat ≤ 2 ^ s.cfg.pwmRes.toNat - 1 → b.toNat ≤ 2 ^ s.cfg.pwmRes.toNat - 1 →
    exec (.queueTrajSeg a b code dur) s =
      .next
        { s with
          coop.queue :=
            (if s.queueFull then s.coop.queue
             else s.coop.queue.set s.coop.qHead
              ⟨a, b, dur.getD s.params.segDefaultDurationUs, sh⟩)
          coop.qHead :=
            (if s.queueFull then s.coop.qHead else (s.coop.qHead + 1) % s.params.qSlots)
          ext.store :=
            (if s.params.segFallthroughSave then settingsRecord s.params s.cfg else s.ext.store)
          ext.outbound := s.ext.outbound ++ [0x02, 0xA0, 0x52, 0xF2] }

/-- R189, R190, R122, C10, whatever falls inside the handlers: the ACK, COOP's registers, the
configuration and the store. QUEUE_TRAJ_SEG drops its segment when the queue is still full where
Enqueue reads the tail and puts it at the end of what ticks have left otherwise; the store then holds
the settings record when SEG_FALLTHROUGH_SAVE is set, and what it held when not, or what the
environment has put there since. -/
def Obligations.StoringCommandsUnderInterleaving : Prop :=
  ∀ s : State,
    (∀ (a b : U16) (code : Byte) (sh : Shape) (dur : Option U32) (seg : Segment), s.Inv →
      (code = 0x00 ∧ sh = .step ∨ code = 0x01 ∧ sh = .linear) →
      a.toNat ≤ 2 ^ s.cfg.pwmRes.toNat - 1 → b.toNat ≤ 2 ^ s.cfg.pwmRes.toNat - 1 →
      seg = ⟨a, b, dur.getD s.params.segDefaultDurationUs, sh⟩ →
      ∃ t n m, exec (.queueTrajSeg a b code dur) s = .next t ∧ t.cfg = s.cfg ∧
        t.periodUs = s.periodUs ∧
        t.coop =
          (if s.yield.queueFull then s.coop
           else
            { s.coop with
              queue := s.coop.queue.set s.coop.qHead seg
              qHead := (s.coop.qHead + 1) % s.params.qSlots }) ∧
        t.liveSegments =
          (s.liveSegments ++ (if s.yield.queueFull then [] else [seg])).drop m ∧
        t.ext.outbound = s.ext.outbound.drop n ++ [0x02, 0xA0, 0x52, 0xF2] ∧
        (t.ext.store =
            (if s.params.segFallthroughSave then settingsRecord s.params s.cfg else s.ext.store) ∨
          .envStore t.ext.store ∈ s.sched.script)) ∧
    (∃ t n, exec .saveSettings s = .next t ∧ t.cfg = s.cfg ∧ t.periodUs = s.periodUs ∧
      t.coop = s.coop ∧
      t.ext.outbound = s.ext.outbound.drop n ++ [0x02, 0xA0, 0x60, 0x00] ∧
      (t.ext.store = settingsRecord s.params s.cfg ∨ .envStore t.ext.store ∈ s.sched.script))

/-- R190 to R192, with nothing falling inside the handler: what is stored, what is sent, and that
the reset comes after both. -/
def Obligations.SettingsCommandsExactly : Prop :=
  ∀ (s : State) (r : List Byte), s.Quiet →
    r = be16 s.params.settingsTag ++ [s.cfg.outPin, s.cfg.sensePin] ++ be32 s.cfg.pwmFreq ++
      [s.cfg.pwmRes] ++ be32 s.cfg.senseRate ++ [s.cfg.senseRes] →
    exec .saveSettings s =
      .next
        { s with
          ext.store := r
          ext.outbound := s.ext.outbound ++ [0x02, 0xA0, 0x60, 0x00] } ∧
    exec .softReset s =
      .next
        ({ s with
           ext.outbound := s.ext.outbound ++ [0x02, 0xA0, 0x70, 0x10] } : State).deviceReset ∧
    exec .saveAndReset s =
      .next
        ({ s with
           ext.store := r
           ext.outbound := s.ext.outbound ++ [0x02, 0xA0, 0x71, 0x11] } : State).deviceReset

/-- R54, R191, R192, R240, R242, R244, R245: whatever falls before it, a reset command leaves every
register at its reset value, the configuration of the store, the output configured and at duty 0, and
no pending tick; the ACK is in the outbound sequence. It keeps the inbound bytes, the store (after
SAVE_AND_RESET, the record of the live configuration) and the microsecond counter: only HOST and ENV
change them meanwhile. -/
def Obligations.ResetCommandsReset : Prop :=
  ∀ (s : State) (i : Instr), i = .softReset ∨ i = .saveAndReset →
    ∃ t n older more,
      exec i s = .next t ∧
      t.params = s.params ∧ t.cfg = loadConfig s.params t.ext.store ∧
      t.periodUs.toNat = 1000000 / t.cfg.senseRate.toNat % 2 ^ 32 ∧
      t.coop =
        { streamingEnabled := false, automationEnabled := false, autoGen := 0, dutyCmd := 0
          dutyGen := 0, queue := t.coop.queue, qHead := 0, wrapSeen := 0, pstate := .awaitLen
          plen := 0, lastSyncUs := 0, pos := .passStart } ∧
      t.coop.queue.length = s.params.qSlots ∧
      t.tick =
        { autoSeen := 0, autoActive := false, dutySeen := 0, dutyOut := 0, qTail := 0
          segStart := 0, segEnd := 0, segShape := .step, segTotal := 0, segStep := 0, segAcc := 0
          ring := List.replicate s.params.ringN ⟨0, 0⟩, widx := 0, wrapCount := 0 } ∧
      t.tickPending = none ∧
      t.ext.trace =
        older ++ [.pwmConfigure t.cfg.outPin t.cfg.pwmFreq t.cfg.pwmRes, .pwmWrite t.cfg.outPin 0] ∧
      t.ext.outbound =
        (s.ext.outbound ++
          encode s.params (.respAck (if i = .softReset then 0x70 else 0x71))).drop n ∧
      t.ext.inbound = s.ext.inbound ++ more ∧
      (t.ext.store =
          (if i = .softReset then s.ext.store else settingsRecord s.params s.cfg) ∨
        .envStore t.ext.store ∈ s.sched.script) ∧
      (noInputs s.sched.script = true → n = 0 ∧ more = [] ∧ t.ext.timeBase = s.ext.timeBase)

/-- R192, R51: after SAVE_AND_RESET the configuration is the one that was live. -/
def Obligations.SaveAndResetKeepsConfiguration : Prop :=
  ∀ s : State, s.cfg.Valid s.params → s.Quiet →
    ∃ t, exec .saveAndReset s = .next t ∧ t.cfg = s.cfg ∧
      t.ext.store = settingsRecord s.params s.cfg

/-- R51, R247: whatever bytes the store holds, the configuration reset loads is valid; a valid record
with the right tag is taken as it is; a record with the right tag that is not valid, and bytes of
another length or tag, give DEFAULT_CONFIG. -/
def Obligations.LoadedConfigurationIsValid : Prop :=
  ∀ (p : Config.Params) (store : List Byte), p.Valid →
    (loadConfig p store).Valid p ∧
    (∀ c : Config.ConfigRegs, c.Valid p → store = settingsRecord p c → loadConfig p store = c) ∧
    (∀ c : Config.ConfigRegs, ¬ c.Valid p → store = settingsRecord p c →
      loadConfig p store = p.defaultConfig) ∧
    (store.length ≠ 14 ∨ store.take 2 ≠ be16 p.settingsTag → loadConfig p store = p.defaultConfig)

/-- R84 to R87: running a response or telemetry frame appends its bytes to the outbound sequence and
changes nothing else. That these frames run as instructions is the model's reading (log 13). -/
def Obligations.DeviceFramesAreSent : Prop :=
  ∀ (s : State) (op code : Byte) (fw : U16) (cfg : Config.ConfigRegs) (d : U16)
    (samples : List Sample) (t : U32),
    exec (.respAck op) s =
      .next { s with ext.outbound := s.ext.outbound ++ [0x02, 0xA0, op, checksum8 [0xA0, op]] } ∧
    exec (.respError op code) s =
      .next
        { s with
          ext.outbound :=
            s.ext.outbound ++ [0x03, 0xA1, op, code, checksum8 [0xA1, op, code]] } ∧
    exec (.respStatus fw cfg) s =
      .next
        { s with
          ext.outbound :=
            s.ext.outbound ++ [0x0F, 0xA2] ++ be16 fw ++ configBytes cfg ++
              [checksum8 (0xA2 :: be16 fw ++ configBytes cfg)] } ∧
    exec (.respDuty d) s =
      .next
        { s with
          ext.outbound :=
            s.ext.outbound ++ [0x03, 0xA3] ++ be16 d ++ [checksum8 (0xA3 :: be16 d)] } ∧
    exec (.telemSnapshot samples) s =
      .next
        { s with
          ext.outbound :=
            s.ext.outbound ++ [s.params.telemMagic, s.params.typeSnapshot] ++
              samples.flatMap (fun x => le16 x.duty ++ le16 x.current) ++
              [crc8 s.params (s.params.typeSnapshot ::
                samples.flatMap (fun x => le16 x.duty ++ le16 x.current))] } ∧
    exec (.telemTimesync t) s =
      .next
        { s with
          ext.outbound :=
            s.ext.outbound ++ [s.params.telemMagic, s.params.typeTimesync] ++ be32 t ++
              [crc8 s.params (s.params.typeTimesync :: be32 t)] }

/-- R194: every command gets exactly one reply, except a successful SET_DUTY_NOACK or SET_DUTY_FAST,
which gets none: an error when it fails, STATUS or DUTY for the two queries, ACK for every other
command that succeeds (`replyTo`). -/
def Obligations.ReplyPolicy : Prop :=
  ∀ (s : State) (i : Instr), i.direction = .hostToDevice → s.Quiet →
    ∃ t, exec i s = .next t ∧
      t.ext.outbound = s.ext.outbound ++ ((replyTo s i).map (encode s.params)).getD []

/-! ## Telemetry -/

/-- R150, R151, R156, R158: a pass with nothing received sends the ring, in slot order, when
streaming is enabled and a wrap has completed, and then `wrap_seen` is `wrap_count`; otherwise it
sends no snapshot. -/
def Obligations.SnapshotPass : Prop :=
  ∀ (s : State) (rest : List Event), s.coop.pos = .passStart → s.coop.pstate = .awaitLen →
    s.ext.inbound = [] → s.tickPending = none →
    (s.coop.streamingEnabled = true → s.tick.wrapCount ≠ s.coop.wrapSeen →
      s.sched.script = List.replicate 6 .coop ++ rest →
      Host.Core.run Sys2Proof.core 6 s =
        .next
          { s with
            sched.script := rest
            coop.wrapSeen := s.tick.wrapCount
            coop.pos := .syncAvail
            ext.outbound := s.ext.outbound ++ encode s.params (.telemSnapshot s.tick.ring) }) ∧
    (s.coop.streamingEnabled = true → s.tick.wrapCount = s.coop.wrapSeen →
      s.sched.script = List.replicate 5 .coop ++ rest →
      Host.Core.run Sys2Proof.core 5 s =
        .next { s with sched.script := rest, coop.pos := .syncAvail }) ∧
    (s.coop.streamingEnabled = false → s.sched.script = List.replicate 2 .coop ++ rest →
      Host.Core.run Sys2Proof.core 2 s =
        .next { s with sched.script := rest, coop.pos := .syncAvail })

/-- R70, R218: a tick that falls due inside the exclusion window waits, at most one, and runs as soon
as the window ends, with a new wrap to show or without; the snapshot is the ring as it was before
that tick. That two ticks due inside it become one, with the first draw, is the model's choice
(log 10). -/
def Obligations.WindowMasksTick : Prop :=
  ∀ (s : State) (c c' : U16) (rest : List Event), s.coop.pos = .snapWindow → s.tickPending = none →
    s.sched.script = [.tick c, .tick c', .coop] ++ rest →
    (s.tick.wrapCount ≠ s.coop.wrapSeen →
      Host.Core.run Sys2Proof.core 3 s =
        .next
          (({ s with
              sched.script := rest
              coop.wrapSeen := s.tick.wrapCount
              coop.pos := .send (.telemSnapshot s.tick.ring) } : State).tickStep c)) ∧
    (s.tick.wrapCount = s.coop.wrapSeen →
      Host.Core.run Sys2Proof.core 3 s =
        .next (({ s with sched.script := rest, coop.pos := .syncAvail } : State).tickStep c))

/-- R153, R154: a time-sync pass with nothing received sends the counter and notes it when the
distance modulo 2^32 has reached the interval, and otherwise does nothing. -/
def Obligations.TimeSyncPass : Prop :=
  ∀ (s : State) (rest : List Event), s.coop.pos = .syncAvail → s.ext.inbound = [] →
    (s.params.timesyncIntervalUs ≤
        (s.ext.timeBase.toNat + (2 ^ 32 - s.coop.lastSyncUs.toNat)) % 2 ^ 32 →
      s.sched.script = List.replicate 4 .coop ++ rest →
      Host.Core.run Sys2Proof.core 4 s =
        .next
          { s with
            sched.script := rest
            coop.lastSyncUs := s.ext.timeBase
            coop.pos := .passStart
            ext.outbound := s.ext.outbound ++ encode s.params (.telemTimesync s.ext.timeBase) }) ∧
    ((s.ext.timeBase.toNat + (2 ^ 32 - s.coop.lastSyncUs.toNat)) % 2 ^ 32 <
        s.params.timesyncIntervalUs →
      s.sched.script = List.replicate 2 .coop ++ rest →
      Host.Core.run Sys2Proof.core 2 s =
        .next { s with sched.script := rest, coop.pos := .passStart })

/-- R155: with a byte pending, the checks before each telemetry duty turn it away, and the pass
goes back to the receiver. -/
def Obligations.CommandPriority : Prop :=
  ∀ (s : State) (rest : List Event), s.CoopDue rest → s.ext.inbound ≠ [] →
    (s.coop.pos = .snapAvail →
      step s = .next { s with sched.script := rest, coop.pos := .syncAvail }) ∧
    (s.coop.pos = .syncAvail →
      step s = .next { s with sched.script := rest, coop.pos := .passStart })

/-! ## Interleavings -/

/-- R68: a tick that falls between the value and its generation ignores the value: no tick sees a
duty with no matching generation. -/
def Obligations.PublicationOrder : Prop :=
  ∀ (s : State) (d : U16) (c : U16), s.coop.automationEnabled = false → s.dutyPending = false →
    dutyLegal s.cfg d = true → s.windowOpen = false → s.sched.script = [.tick c, .coop, .coop] →
    ∃ t, exec (.setDuty d) s = .next t ∧ t.tick.dutyOut = s.tick.dutyOut ∧ t.coop.dutyCmd = d ∧
      t.dutyPending = true ∧ ∀ c', (t.tickStep c').tick.dutyOut = d

/-- R252, R181: of two duty commands between two ticks only the last is output, and the earlier one
never reaches the PWM output or the ring. -/
def Obligations.DutyCommandsFold : Prop :=
  ∀ (s t u : State) (d e : U16) (c : U16), s.Quiet → s.coop.automationEnabled = false →
    dutyLegal s.cfg d = true → dutyLegal s.cfg e = true →
    s.coop.dutyGen = s.tick.dutySeen →
    exec (.setDuty d) s = .next t → exec (.setDuty e) t = .next u →
    (u.tickStep c).tick.dutyOut = e ∧
    (u.tickStep c).ext.trace = s.ext.trace ++ [.pwmWrite s.cfg.outPin e] ∧
    (u.tickStep c).tick.ring = s.tick.ring.set s.tick.widx ⟨e, adcInRange s.cfg c⟩

/-- R184, R251: after STOP_OUTPUT, whatever ran before, the next tick drives 0 and ends automation;
the trajectory queue is kept. -/
def Obligations.StopOutputDrivesZero : Prop :=
  ∀ (s t : State) (c : U16), s.Quiet → s.coop.dutyGen + 1 ≠ s.tick.dutySeen →
    exec .stopOutput s = .next t →
    (t.tickStep c).tick.dutyOut = 0 ∧ (t.tickStep c).tick.autoActive = false ∧
    (t.tickStep c).ext.trace = s.ext.trace ++ [.pwmWrite s.cfg.outPin 0] ∧
    (t.tickStep c).liveSegments = s.liveSegments

/-- R34, R187, R252: START_AUTOMATION twice between two ticks is one request: the next tick starts
one segment for it, and the tick after that none. -/
def Obligations.StartRequestsFold : Prop :=
  ∀ (s t u : State) (g : Segment) (r : List Segment), s.Inv → s.Quiet →
    s.coop.autoGen + 2 ≠ s.tick.autoSeen → s.liveSegments = g :: r →
    exec .startAutomation s = .next t → exec .startAutomation t = .next u →
    u.tickRequest.liveSegments = r ∧ u.tickRequest.tick.segEnd = g.endDuty ∧
    u.tickRequest.tick.autoActive = true ∧
    u.tickRequest.tickRequest = u.tickRequest
end

