-- ==== Sys2Proof/Laws/State.lean ====
section
/-! SUPPORT. One lemma for each part of State under each named update: the part is as it was, or
has the one field written. No later proof unfolds a record update. -/

namespace Sys2Proof.Machine

variable (s : State)

@[simp] theorem State.send_params (bs : List Byte) : (s.send bs).params = s.params := rfl
@[simp] theorem State.send_cfg (bs : List Byte) : (s.send bs).cfg = s.cfg := rfl
@[simp] theorem State.send_periodUs (bs : List Byte) : (s.send bs).periodUs = s.periodUs := rfl
@[simp] theorem State.send_coop (bs : List Byte) : (s.send bs).coop = s.coop := rfl
@[simp] theorem State.send_tick (bs : List Byte) : (s.send bs).tick = s.tick := rfl
@[simp] theorem State.send_tickPending (bs : List Byte) :
    (s.send bs).tickPending = s.tickPending := rfl
@[simp] theorem State.send_ext (bs : List Byte) :
    (s.send bs).ext =
      { s.ext with outbound := s.ext.outbound ++ bs } := rfl
@[simp] theorem State.send_sched (bs : List Byte) : (s.send bs).sched = s.sched := rfl

@[simp] theorem State.recvBytes_params (n : Nat) : (s.recvBytes n).params = s.params := rfl
@[simp] theorem State.recvBytes_cfg (n : Nat) : (s.recvBytes n).cfg = s.cfg := rfl
@[simp] theorem State.recvBytes_periodUs (n : Nat) : (s.recvBytes n).periodUs = s.periodUs := rfl
@[simp] theorem State.recvBytes_coop (n : Nat) : (s.recvBytes n).coop = s.coop := rfl
@[simp] theorem State.recvBytes_tick (n : Nat) : (s.recvBytes n).tick = s.tick := rfl
@[simp] theorem State.recvBytes_tickPending (n : Nat) :
    (s.recvBytes n).tickPending = s.tickPending := rfl
@[simp] theorem State.recvBytes_ext (n : Nat) :
    (s.recvBytes n).ext =
      { s.ext with inbound := s.ext.inbound.drop n } := rfl
@[simp] theorem State.recvBytes_sched (n : Nat) : (s.recvBytes n).sched = s.sched := rfl

@[simp] theorem State.pwmWrite_params (pin : Byte) (d : U16) :
    (s.pwmWrite pin d).params = s.params := rfl
@[simp] theorem State.pwmWrite_cfg (pin : Byte) (d : U16) : (s.pwmWrite pin d).cfg = s.cfg := rfl
@[simp] theorem State.pwmWrite_periodUs (pin : Byte) (d : U16) :
    (s.pwmWrite pin d).periodUs = s.periodUs := rfl
@[simp] theorem State.pwmWrite_coop (pin : Byte) (d : U16) : (s.pwmWrite pin d).coop = s.coop := rfl
@[simp] theorem State.pwmWrite_tick (pin : Byte) (d : U16) : (s.pwmWrite pin d).tick = s.tick := rfl
@[simp] theorem State.pwmWrite_tickPending (pin : Byte) (d : U16) :
    (s.pwmWrite pin d).tickPending = s.tickPending := rfl
@[simp] theorem State.pwmWrite_ext (pin : Byte) (d : U16) :
    (s.pwmWrite pin d).ext =
      { s.ext with trace := s.ext.trace ++ [.pwmWrite pin d] } := rfl
@[simp] theorem State.pwmWrite_sched (pin : Byte) (d : U16) :
    (s.pwmWrite pin d).sched = s.sched := rfl

@[simp] theorem State.pwmConfigure_params (pin : Byte) (f : U32) (r : Byte) :
    (s.pwmConfigure pin f r).params = s.params := rfl
@[simp] theorem State.pwmConfigure_cfg (pin : Byte) (f : U32) (r : Byte) :
    (s.pwmConfigure pin f r).cfg = s.cfg := rfl
@[simp] theorem State.pwmConfigure_periodUs (pin : Byte) (f : U32) (r : Byte) :
    (s.pwmConfigure pin f r).periodUs = s.periodUs := rfl
@[simp] theorem State.pwmConfigure_coop (pin : Byte) (f : U32) (r : Byte) :
    (s.pwmConfigure pin f r).coop = s.coop := rfl
@[simp] theorem State.pwmConfigure_tick (pin : Byte) (f : U32) (r : Byte) :
    (s.pwmConfigure pin f r).tick = s.tick := rfl
@[simp] theorem State.pwmConfigure_tickPending (pin : Byte) (f : U32) (r : Byte) :
    (s.pwmConfigure pin f r).tickPending = s.tickPending := rfl
@[simp] theorem State.pwmConfigure_ext (pin : Byte) (f : U32) (r : Byte) :
    (s.pwmConfigure pin f r).ext =
      { s.ext with trace := s.ext.trace ++ [.pwmConfigure pin f r] } := rfl
@[simp] theorem State.pwmConfigure_sched (pin : Byte) (f : U32) (r : Byte) :
    (s.pwmConfigure pin f r).sched = s.sched := rfl

@[simp] theorem State.nvStore_params (bs : List Byte) : (s.nvStore bs).params = s.params := rfl
@[simp] theorem State.nvStore_cfg (bs : List Byte) : (s.nvStore bs).cfg = s.cfg := rfl
@[simp] theorem State.nvStore_periodUs (bs : List Byte) :
    (s.nvStore bs).periodUs = s.periodUs := rfl
@[simp] theorem State.nvStore_coop (bs : List Byte) : (s.nvStore bs).coop = s.coop := rfl
@[simp] theorem State.nvStore_tick (bs : List Byte) : (s.nvStore bs).tick = s.tick := rfl
@[simp] theorem State.nvStore_tickPending (bs : List Byte) :
    (s.nvStore bs).tickPending = s.tickPending := rfl
@[simp] theorem State.nvStore_ext (bs : List Byte) :
    (s.nvStore bs).ext =
      { s.ext with store := bs } := rfl
@[simp] theorem State.nvStore_sched (bs : List Byte) : (s.nvStore bs).sched = s.sched := rfl

@[simp] theorem State.sendFrame_params (i : Instr) : (s.sendFrame i).params = s.params := rfl
@[simp] theorem State.sendFrame_cfg (i : Instr) : (s.sendFrame i).cfg = s.cfg := rfl
@[simp] theorem State.sendFrame_periodUs (i : Instr) : (s.sendFrame i).periodUs = s.periodUs := rfl
@[simp] theorem State.sendFrame_coop (i : Instr) : (s.sendFrame i).coop = s.coop := rfl
@[simp] theorem State.sendFrame_tick (i : Instr) : (s.sendFrame i).tick = s.tick := rfl
@[simp] theorem State.sendFrame_tickPending (i : Instr) :
    (s.sendFrame i).tickPending = s.tickPending := rfl
@[simp] theorem State.sendFrame_ext (i : Instr) :
    (s.sendFrame i).ext =
      { s.ext with outbound := s.ext.outbound ++ encode s.params i } := rfl
@[simp] theorem State.sendFrame_sched (i : Instr) : (s.sendFrame i).sched = s.sched := rfl

@[simp] theorem State.ack_params (o : Opcode) : (s.ack o).params = s.params := rfl
@[simp] theorem State.ack_cfg (o : Opcode) : (s.ack o).cfg = s.cfg := rfl
@[simp] theorem State.ack_periodUs (o : Opcode) : (s.ack o).periodUs = s.periodUs := rfl
@[simp] theorem State.ack_coop (o : Opcode) : (s.ack o).coop = s.coop := rfl
@[simp] theorem State.ack_tick (o : Opcode) : (s.ack o).tick = s.tick := rfl
@[simp] theorem State.ack_tickPending (o : Opcode) : (s.ack o).tickPending = s.tickPending := rfl
@[simp] theorem State.ack_ext (o : Opcode) :
    (s.ack o).ext =
      { s.ext with outbound := s.ext.outbound ++ encode s.params (.respAck (opcodeByte o)) } := rfl
@[simp] theorem State.ack_sched (o : Opcode) : (s.ack o).sched = s.sched := rfl

@[simp] theorem State.raise_params (e : CommandError) (op : Byte) :
    (s.raise e op).params = s.params := rfl
@[simp] theorem State.raise_cfg (e : CommandError) (op : Byte) : (s.raise e op).cfg = s.cfg := rfl
@[simp] theorem State.raise_periodUs (e : CommandError) (op : Byte) :
    (s.raise e op).periodUs = s.periodUs := rfl
@[simp] theorem State.raise_coop (e : CommandError) (op : Byte) :
    (s.raise e op).coop = s.coop := rfl
@[simp] theorem State.raise_tick (e : CommandError) (op : Byte) :
    (s.raise e op).tick = s.tick := rfl
@[simp] theorem State.raise_tickPending (e : CommandError) (op : Byte) :
    (s.raise e op).tickPending = s.tickPending := rfl
@[simp] theorem State.raise_ext (e : CommandError) (op : Byte) :
    (s.raise e op).ext =
      { s.ext with outbound := s.ext.outbound ++ encode s.params (.respError op (errorCode e)) } := rfl
@[simp] theorem State.raise_sched (e : CommandError) (op : Byte) :
    (s.raise e op).sched = s.sched := rfl

@[simp] theorem State.setOutPin_params (v : Byte) : (s.setOutPin v).params = s.params := rfl
@[simp] theorem State.setOutPin_cfg (v : Byte) :
    (s.setOutPin v).cfg =
      { s.cfg with outPin := v } := rfl
@[simp] theorem State.setOutPin_periodUs (v : Byte) : (s.setOutPin v).periodUs = s.periodUs := rfl
@[simp] theorem State.setOutPin_coop (v : Byte) : (s.setOutPin v).coop = s.coop := rfl
@[simp] theorem State.setOutPin_tick (v : Byte) : (s.setOutPin v).tick = s.tick := rfl
@[simp] theorem State.setOutPin_tickPending (v : Byte) :
    (s.setOutPin v).tickPending = s.tickPending := rfl
@[simp] theorem State.setOutPin_ext (v : Byte) : (s.setOutPin v).ext = s.ext := rfl
@[simp] theorem State.setOutPin_sched (v : Byte) : (s.setOutPin v).sched = s.sched := rfl

@[simp] theorem State.setSensePin_params (v : Byte) : (s.setSensePin v).params = s.params := rfl
@[simp] theorem State.setSensePin_cfg (v : Byte) :
    (s.setSensePin v).cfg =
      { s.cfg with sensePin := v } := rfl
@[simp] theorem State.setSensePin_periodUs (v : Byte) :
    (s.setSensePin v).periodUs = s.periodUs := rfl
@[simp] theorem State.setSensePin_coop (v : Byte) : (s.setSensePin v).coop = s.coop := rfl
@[simp] theorem State.setSensePin_tick (v : Byte) : (s.setSensePin v).tick = s.tick := rfl
@[simp] theorem State.setSensePin_tickPending (v : Byte) :
    (s.setSensePin v).tickPending = s.tickPending := rfl
@[simp] theorem State.setSensePin_ext (v : Byte) : (s.setSensePin v).ext = s.ext := rfl
@[simp] theorem State.setSensePin_sched (v : Byte) : (s.setSensePin v).sched = s.sched := rfl

@[simp] theorem State.setPwmFreq_params (v : U32) : (s.setPwmFreq v).params = s.params := rfl
@[simp] theorem State.setPwmFreq_cfg (v : U32) :
    (s.setPwmFreq v).cfg =
      { s.cfg with pwmFreq := v } := rfl
@[simp] theorem State.setPwmFreq_periodUs (v : U32) : (s.setPwmFreq v).periodUs = s.periodUs := rfl
@[simp] theorem State.setPwmFreq_coop (v : U32) : (s.setPwmFreq v).coop = s.coop := rfl
@[simp] theorem State.setPwmFreq_tick (v : U32) : (s.setPwmFreq v).tick = s.tick := rfl
@[simp] theorem State.setPwmFreq_tickPending (v : U32) :
    (s.setPwmFreq v).tickPending = s.tickPending := rfl
@[simp] theorem State.setPwmFreq_ext (v : U32) : (s.setPwmFreq v).ext = s.ext := rfl
@[simp] theorem State.setPwmFreq_sched (v : U32) : (s.setPwmFreq v).sched = s.sched := rfl

@[simp] theorem State.setStreaming_params (v : Bool) : (s.setStreaming v).params = s.params := rfl
@[simp] theorem State.setStreaming_cfg (v : Bool) : (s.setStreaming v).cfg = s.cfg := rfl
@[simp] theorem State.setStreaming_periodUs (v : Bool) :
    (s.setStreaming v).periodUs = s.periodUs := rfl
@[simp] theorem State.setStreaming_coop (v : Bool) :
    (s.setStreaming v).coop =
      { s.coop with streamingEnabled := v } := rfl
@[simp] theorem State.setStreaming_tick (v : Bool) : (s.setStreaming v).tick = s.tick := rfl
@[simp] theorem State.setStreaming_tickPending (v : Bool) :
    (s.setStreaming v).tickPending = s.tickPending := rfl
@[simp] theorem State.setStreaming_ext (v : Bool) : (s.setStreaming v).ext = s.ext := rfl
@[simp] theorem State.setStreaming_sched (v : Bool) : (s.setStreaming v).sched = s.sched := rfl

@[simp] theorem State.setAutomation_params (v : Bool) : (s.setAutomation v).params = s.params := rfl
@[simp] theorem State.setAutomation_cfg (v : Bool) : (s.setAutomation v).cfg = s.cfg := rfl
@[simp] theorem State.setAutomation_periodUs (v : Bool) :
    (s.setAutomation v).periodUs = s.periodUs := rfl
@[simp] theorem State.setAutomation_coop (v : Bool) :
    (s.setAutomation v).coop =
      { s.coop with automationEnabled := v } := rfl
@[simp] theorem State.setAutomation_tick (v : Bool) : (s.setAutomation v).tick = s.tick := rfl
@[simp] theorem State.setAutomation_tickPending (v : Bool) :
    (s.setAutomation v).tickPending = s.tickPending := rfl
@[simp] theorem State.setAutomation_ext (v : Bool) : (s.setAutomation v).ext = s.ext := rfl
@[simp] theorem State.setAutomation_sched (v : Bool) : (s.setAutomation v).sched = s.sched := rfl

@[simp] theorem State.bumpAutoGen_params : (s.bumpAutoGen).params = s.params := rfl
@[simp] theorem State.bumpAutoGen_cfg : (s.bumpAutoGen).cfg = s.cfg := rfl
@[simp] theorem State.bumpAutoGen_periodUs : (s.bumpAutoGen).periodUs = s.periodUs := rfl
@[simp] theorem State.bumpAutoGen_coop :
    (s.bumpAutoGen).coop =
      { s.coop with autoGen := s.coop.autoGen + 1 } := rfl
@[simp] theorem State.bumpAutoGen_tick : (s.bumpAutoGen).tick = s.tick := rfl
@[simp] theorem State.bumpAutoGen_tickPending : (s.bumpAutoGen).tickPending = s.tickPending := rfl
@[simp] theorem State.bumpAutoGen_ext : (s.bumpAutoGen).ext = s.ext := rfl
@[simp] theorem State.bumpAutoGen_sched : (s.bumpAutoGen).sched = s.sched := rfl

@[simp] theorem State.setDutyCmd_params (v : U16) : (s.setDutyCmd v).params = s.params := rfl
@[simp] theorem State.setDutyCmd_cfg (v : U16) : (s.setDutyCmd v).cfg = s.cfg := rfl
@[simp] theorem State.setDutyCmd_periodUs (v : U16) : (s.setDutyCmd v).periodUs = s.periodUs := rfl
@[simp] theorem State.setDutyCmd_coop (v : U16) :
    (s.setDutyCmd v).coop =
      { s.coop with dutyCmd := v } := rfl
@[simp] theorem State.setDutyCmd_tick (v : U16) : (s.setDutyCmd v).tick = s.tick := rfl
@[simp] theorem State.setDutyCmd_tickPending (v : U16) :
    (s.setDutyCmd v).tickPending = s.tickPending := rfl
@[simp] theorem State.setDutyCmd_ext (v : U16) : (s.setDutyCmd v).ext = s.ext := rfl
@[simp] theorem State.setDutyCmd_sched (v : U16) : (s.setDutyCmd v).sched = s.sched := rfl

@[simp] theorem State.bumpDutyGen_params : (s.bumpDutyGen).params = s.params := rfl
@[simp] theorem State.bumpDutyGen_cfg : (s.bumpDutyGen).cfg = s.cfg := rfl
@[simp] theorem State.bumpDutyGen_periodUs : (s.bumpDutyGen).periodUs = s.periodUs := rfl
@[simp] theorem State.bumpDutyGen_coop :
    (s.bumpDutyGen).coop =
      { s.coop with dutyGen := s.coop.dutyGen + 1 } := rfl
@[simp] theorem State.bumpDutyGen_tick : (s.bumpDutyGen).tick = s.tick := rfl
@[simp] theorem State.bumpDutyGen_tickPending : (s.bumpDutyGen).tickPending = s.tickPending := rfl
@[simp] theorem State.bumpDutyGen_ext : (s.bumpDutyGen).ext = s.ext := rfl
@[simp] theorem State.bumpDutyGen_sched : (s.bumpDutyGen).sched = s.sched := rfl

@[simp] theorem State.writeQueue_params (i : Nat) (seg : Segment) :
    (s.writeQueue i seg).params = s.params := rfl
@[simp] theorem State.writeQueue_cfg (i : Nat) (seg : Segment) :
    (s.writeQueue i seg).cfg = s.cfg := rfl
@[simp] theorem State.writeQueue_periodUs (i : Nat) (seg : Segment) :
    (s.writeQueue i seg).periodUs = s.periodUs := rfl
@[simp] theorem State.writeQueue_coop (i : Nat) (seg : Segment) :
    (s.writeQueue i seg).coop =
      { s.coop with queue := s.coop.queue.set i seg } := rfl
@[simp] theorem State.writeQueue_tick (i : Nat) (seg : Segment) :
    (s.writeQueue i seg).tick = s.tick := rfl
@[simp] theorem State.writeQueue_tickPending (i : Nat) (seg : Segment) :
    (s.writeQueue i seg).tickPending = s.tickPending := rfl
@[simp] theorem State.writeQueue_ext (i : Nat) (seg : Segment) :
    (s.writeQueue i seg).ext = s.ext := rfl
@[simp] theorem State.writeQueue_sched (i : Nat) (seg : Segment) :
    (s.writeQueue i seg).sched = s.sched := rfl

@[simp] theorem State.setQHead_params (v : Nat) : (s.setQHead v).params = s.params := rfl
@[simp] theorem State.setQHead_cfg (v : Nat) : (s.setQHead v).cfg = s.cfg := rfl
@[simp] theorem State.setQHead_periodUs (v : Nat) : (s.setQHead v).periodUs = s.periodUs := rfl
@[simp] theorem State.setQHead_coop (v : Nat) :
    (s.setQHead v).coop =
      { s.coop with qHead := v } := rfl
@[simp] theorem State.setQHead_tick (v : Nat) : (s.setQHead v).tick = s.tick := rfl
@[simp] theorem State.setQHead_tickPending (v : Nat) :
    (s.setQHead v).tickPending = s.tickPending := rfl
@[simp] theorem State.setQHead_ext (v : Nat) : (s.setQHead v).ext = s.ext := rfl
@[simp] theorem State.setQHead_sched (v : Nat) : (s.setQHead v).sched = s.sched := rfl

@[simp] theorem State.setWrapSeen_params (v : U32) : (s.setWrapSeen v).params = s.params := rfl
@[simp] theorem State.setWrapSeen_cfg (v : U32) : (s.setWrapSeen v).cfg = s.cfg := rfl
@[simp] theorem State.setWrapSeen_periodUs (v : U32) :
    (s.setWrapSeen v).periodUs = s.periodUs := rfl
@[simp] theorem State.setWrapSeen_coop (v : U32) :
    (s.setWrapSeen v).coop =
      { s.coop with wrapSeen := v } := rfl
@[simp] theorem State.setWrapSeen_tick (v : U32) : (s.setWrapSeen v).tick = s.tick := rfl
@[simp] theorem State.setWrapSeen_tickPending (v : U32) :
    (s.setWrapSeen v).tickPending = s.tickPending := rfl
@[simp] theorem State.setWrapSeen_ext (v : U32) : (s.setWrapSeen v).ext = s.ext := rfl
@[simp] theorem State.setWrapSeen_sched (v : U32) : (s.setWrapSeen v).sched = s.sched := rfl

@[simp] theorem State.setPstate_params (v : Pstate) : (s.setPstate v).params = s.params := rfl
@[simp] theorem State.setPstate_cfg (v : Pstate) : (s.setPstate v).cfg = s.cfg := rfl
@[simp] theorem State.setPstate_periodUs (v : Pstate) : (s.setPstate v).periodUs = s.periodUs := rfl
@[simp] theorem State.setPstate_coop (v : Pstate) :
    (s.setPstate v).coop =
      { s.coop with pstate := v } := rfl
@[simp] theorem State.setPstate_tick (v : Pstate) : (s.setPstate v).tick = s.tick := rfl
@[simp] theorem State.setPstate_tickPending (v : Pstate) :
    (s.setPstate v).tickPending = s.tickPending := rfl
@[simp] theorem State.setPstate_ext (v : Pstate) : (s.setPstate v).ext = s.ext := rfl
@[simp] theorem State.setPstate_sched (v : Pstate) : (s.setPstate v).sched = s.sched := rfl

@[simp] theorem State.setPlen_params (v : Byte) : (s.setPlen v).params = s.params := rfl
@[simp] theorem State.setPlen_cfg (v : Byte) : (s.setPlen v).cfg = s.cfg := rfl
@[simp] theorem State.setPlen_periodUs (v : Byte) : (s.setPlen v).periodUs = s.periodUs := rfl
@[simp] theorem State.setPlen_coop (v : Byte) :
    (s.setPlen v).coop =
      { s.coop with plen := v } := rfl
@[simp] theorem State.setPlen_tick (v : Byte) : (s.setPlen v).tick = s.tick := rfl
@[simp] theorem State.setPlen_tickPending (v : Byte) :
    (s.setPlen v).tickPending = s.tickPending := rfl
@[simp] theorem State.setPlen_ext (v : Byte) : (s.setPlen v).ext = s.ext := rfl
@[simp] theorem State.setPlen_sched (v : Byte) : (s.setPlen v).sched = s.sched := rfl

@[simp] theorem State.setLastSync_params (v : U32) : (s.setLastSync v).params = s.params := rfl
@[simp] theorem State.setLastSync_cfg (v : U32) : (s.setLastSync v).cfg = s.cfg := rfl
@[simp] theorem State.setLastSync_periodUs (v : U32) :
    (s.setLastSync v).periodUs = s.periodUs := rfl
@[simp] theorem State.setLastSync_coop (v : U32) :
    (s.setLastSync v).coop =
      { s.coop with lastSyncUs := v } := rfl
@[simp] theorem State.setLastSync_tick (v : U32) : (s.setLastSync v).tick = s.tick := rfl
@[simp] theorem State.setLastSync_tickPending (v : U32) :
    (s.setLastSync v).tickPending = s.tickPending := rfl
@[simp] theorem State.setLastSync_ext (v : U32) : (s.setLastSync v).ext = s.ext := rfl
@[simp] theorem State.setLastSync_sched (v : U32) : (s.setLastSync v).sched = s.sched := rfl

@[simp] theorem State.setPos_params (v : CoopPos) : (s.setPos v).params = s.params := rfl
@[simp] theorem State.setPos_cfg (v : CoopPos) : (s.setPos v).cfg = s.cfg := rfl
@[simp] theorem State.setPos_periodUs (v : CoopPos) : (s.setPos v).periodUs = s.periodUs := rfl
@[simp] theorem State.setPos_coop (v : CoopPos) :
    (s.setPos v).coop =
      { s.coop with pos := v } := rfl
@[simp] theorem State.setPos_tick (v : CoopPos) : (s.setPos v).tick = s.tick := rfl
@[simp] theorem State.setPos_tickPending (v : CoopPos) :
    (s.setPos v).tickPending = s.tickPending := rfl
@[simp] theorem State.setPos_ext (v : CoopPos) : (s.setPos v).ext = s.ext := rfl
@[simp] theorem State.setPos_sched (v : CoopPos) : (s.setPos v).sched = s.sched := rfl

@[simp] theorem State.loadSegment_params (g : Segment) : (s.loadSegment g).params = s.params := rfl
@[simp] theorem State.loadSegment_cfg (g : Segment) : (s.loadSegment g).cfg = s.cfg := rfl
@[simp] theorem State.loadSegment_periodUs (g : Segment) :
    (s.loadSegment g).periodUs = s.periodUs := rfl
@[simp] theorem State.loadSegment_coop (g : Segment) : (s.loadSegment g).coop = s.coop := rfl
@[simp] theorem State.loadSegment_tick (g : Segment) : (s.loadSegment g).tick = 
      { s.tick with
        qTail := s.nextSlot s.tick.qTail, segStart := g.startDuty, segEnd := g.endDuty
        segShape := g.shape, segTotal := g.duration / s.periodUs, segStep := 0, segAcc := 0
        autoActive := true } := rfl
@[simp] theorem State.loadSegment_tickPending (g : Segment) :
    (s.loadSegment g).tickPending = s.tickPending := rfl
@[simp] theorem State.loadSegment_ext (g : Segment) : (s.loadSegment g).ext = s.ext := rfl
@[simp] theorem State.loadSegment_sched (g : Segment) : (s.loadSegment g).sched = s.sched := rfl

@[simp] theorem State.flipTurn_params : (s.flipTurn).params = s.params := rfl
@[simp] theorem State.flipTurn_cfg : (s.flipTurn).cfg = s.cfg := rfl
@[simp] theorem State.flipTurn_periodUs : (s.flipTurn).periodUs = s.periodUs := rfl
@[simp] theorem State.flipTurn_coop : (s.flipTurn).coop = s.coop := rfl
@[simp] theorem State.flipTurn_tick : (s.flipTurn).tick = s.tick := rfl
@[simp] theorem State.flipTurn_tickPending : (s.flipTurn).tickPending = s.tickPending := rfl
@[simp] theorem State.flipTurn_ext : (s.flipTurn).ext = s.ext := rfl
@[simp] theorem State.flipTurn_sched :
    (s.flipTurn).sched =
      { s.sched with turn := match s.sched.turn with | .coop => .tick | .tick => .coop } := rfl

@[simp] theorem State.coopNext_params : (s.coopNext).params = s.params := rfl
@[simp] theorem State.coopNext_cfg : (s.coopNext).cfg = s.cfg := rfl
@[simp] theorem State.coopNext_periodUs : (s.coopNext).periodUs = s.periodUs := rfl
@[simp] theorem State.coopNext_coop : (s.coopNext).coop = s.coop := rfl
@[simp] theorem State.coopNext_tick : (s.coopNext).tick = s.tick := rfl
@[simp] theorem State.coopNext_tickPending : (s.coopNext).tickPending = s.tickPending := rfl
@[simp] theorem State.coopNext_ext : (s.coopNext).ext = s.ext := rfl
@[simp] theorem State.coopNext_sched :
    (s.coopNext).sched =
      { s.sched with script := .coop :: s.sched.script } := rfl

end Sys2Proof.Machine
end

