-- ==== Sys2Proof/Laws/Agents.lean ====
section
/-! SUPPORT. What one shared operation of an agent can do: TICK writes its own registers and the
trace, and what falls inside a handler writes nothing of COOP's (R20). -/

namespace Sys2Proof.Machine

/-! ## TICK writes its own registers only -/

/-- `t` differs from `s` in TICK's registers at most. -/
def TickOnly (s t : State) : Prop := t = { s with tick := t.tick }

theorem TickOnly.refl (s : State) : TickOnly s s := rfl

theorem TickOnly.trans {s t u : State} (h : TickOnly s t) (k : TickOnly t u) : TickOnly s u := by
  unfold TickOnly at *
  rw [k, h]

/-- `Start` says what it does (R124). -/
theorem State.start_empty (s : State) (h : s.queueEmpty = true) :
    s.start = (false, { s with tick.autoActive := false }) := by simp [State.start, h]

theorem State.start_pop (s : State) (h : s.queueEmpty = false) :
    s.start = (true, s.loadSegment (s.readQueue s.tick.qTail)) := by simp [State.start, h]

/-- `t` differs from `s` in the engine's registers at most: the tail, the active segment and
`auto_active` (R124, R125). -/
structure EngineOnly (s t : State) : Prop where
  tickOnly : TickOnly s t
  autoSeen : t.tick.autoSeen = s.tick.autoSeen
  dutySeen : t.tick.dutySeen = s.tick.dutySeen
  dutyOut : t.tick.dutyOut = s.tick.dutyOut
  ring : t.tick.ring = s.tick.ring
  widx : t.tick.widx = s.tick.widx
  wrapCount : t.tick.wrapCount = s.tick.wrapCount

theorem EngineOnly.refl (s : State) : EngineOnly s s := ⟨rfl, rfl, rfl, rfl, rfl, rfl, rfl⟩

theorem EngineOnly.trans {s t u : State} (h : EngineOnly s t) (k : EngineOnly t u) :
    EngineOnly s u :=
  ⟨h.tickOnly.trans k.tickOnly, k.autoSeen.trans h.autoSeen, k.dutySeen.trans h.dutySeen,
    k.dutyOut.trans h.dutyOut, k.ring.trans h.ring, k.widx.trans h.widx,
    k.wrapCount.trans h.wrapCount⟩

theorem State.start_engineOnly (s : State) : EngineOnly s s.start.2 := by
  unfold State.start
  split <;> exact ⟨rfl, rfl, rfl, rfl, rfl, rfl, rfl⟩

theorem State.skipCompleted_engineOnly (n : Nat) (s : State) :
    EngineOnly s (s.skipCompleted n).2 := by
  induction n generalizing s with
  | zero => exact .refl s
  | succ n ih =>
    rw [State.skipCompleted]
    split
    · exact .refl s
    · next =>
      have h := s.start_engineOnly
      split <;> next s' e => rw [e] at h; first | exact h | exact h.trans (ih s')

theorem State.segmentStep_engineOnly (s : State) : EngineOnly s s.segmentStep.2 := by
  have mid : EngineOnly s { s with tick.segAcc := s.nextAcc, tick.segStep := s.tick.segStep + 1 } :=
    ⟨rfl, rfl, rfl, rfl, rfl, rfl, rfl⟩
  unfold State.segmentStep
  dsimp only
  split
  · exact mid.trans (State.start_engineOnly _)
  · exact mid

/-- `Advance` writes the engine's registers only; the handshakes, the held duty and the ring stay. -/
theorem State.advance_engineOnly (s : State) : EngineOnly s s.advance.2 := by
  have h := s.skipCompleted_engineOnly s.params.qSlots
  unfold State.advance
  split <;> next e =>
    rw [e] at h; first | exact h | exact h.trans (State.segmentStep_engineOnly _)

theorem State.start_tickOnly (s : State) : TickOnly s s.start.2 := s.start_engineOnly.tickOnly

theorem State.skipCompleted_tickOnly (n : Nat) (s : State) : TickOnly s (s.skipCompleted n).2 :=
  (s.skipCompleted_engineOnly n).tickOnly

theorem State.advance_tickOnly (s : State) : TickOnly s s.advance.2 := s.advance_engineOnly.tickOnly

theorem State.tickRequest_tickOnly (s : State) : TickOnly s s.tickRequest := by
  unfold State.tickRequest
  split
  · split
    · exact TickOnly.trans (t := { s with tick.autoSeen := s.coop.autoGen }) rfl
        (State.start_tickOnly _)
    · exact .refl s
  · rfl

theorem State.tickDuty_tickOnly (s : State) : TickOnly s s.tickDuty.2 := by
  unfold State.tickDuty
  split
  · exact s.advance_tickOnly
  · split
    · rfl
    · exact .refl s

/-! ## One tick -/

/-- One tick, by its three parts (R140). -/
theorem State.tickStep_eq (s : State) (c : U16) :
    s.tickStep c =
      (s.tickRequest.tickDuty.2.tickDrive s.tickRequest.tickDuty.1).tickSample
        s.tickRequest.tickDuty.1 c := rfl

/-- A tick writes TICK's registers and appends its one `PwmWrite` (R20, R29, R143). -/
theorem State.tickStep_frame (s : State) (c : U16) :
    s.tickStep c =
      { s with
        tick := (s.tickStep c).tick
        ext.trace := s.ext.trace ++ [.pwmWrite s.cfg.outPin (s.tickStep c).tick.dutyOut] } := by
  have h : TickOnly s s.tickRequest.tickDuty.2 :=
    s.tickRequest_tickOnly.trans s.tickRequest.tickDuty_tickOnly
  rw [State.tickStep_eq]
  generalize s.tickRequest.tickDuty.1 = d
  generalize s.tickRequest.tickDuty.2 = t at h ⊢
  rw [h]
  rfl

@[simp] theorem State.tickStep_params (s : State) (c : U16) : (s.tickStep c).params = s.params := by
  rw [s.tickStep_frame]
@[simp] theorem State.tickStep_cfg (s : State) (c : U16) : (s.tickStep c).cfg = s.cfg := by
  rw [s.tickStep_frame]
@[simp] theorem State.tickStep_periodUs (s : State) (c : U16) :
    (s.tickStep c).periodUs = s.periodUs := by
  rw [s.tickStep_frame]
@[simp] theorem State.tickStep_coop (s : State) (c : U16) : (s.tickStep c).coop = s.coop := by
  rw [s.tickStep_frame]
@[simp] theorem State.tickStep_sched (s : State) (c : U16) : (s.tickStep c).sched = s.sched := by
  rw [s.tickStep_frame]
@[simp] theorem State.tickStep_tickPending (s : State) (c : U16) :
    (s.tickStep c).tickPending = s.tickPending := by
  rw [s.tickStep_frame]
@[simp] theorem State.tickStep_outbound (s : State) (c : U16) :
    (s.tickStep c).ext.outbound = s.ext.outbound := by
  rw [s.tickStep_frame]
@[simp] theorem State.tickStep_inbound (s : State) (c : U16) :
    (s.tickStep c).ext.inbound = s.ext.inbound := by
  rw [s.tickStep_frame]
@[simp] theorem State.tickStep_store (s : State) (c : U16) :
    (s.tickStep c).ext.store = s.ext.store := by
  rw [s.tickStep_frame]

/-! ## What falls between two COOP steps -/

/-- The parts of the state that only COOP and reset write (R20), and the parameters. -/
structure CoopKept (s t : State) : Prop where
  params : t.params = s.params
  cfg : t.cfg = s.cfg
  periodUs : t.periodUs = s.periodUs
  coop : t.coop = s.coop

theorem CoopKept.refl (s : State) : CoopKept s s := ⟨rfl, rfl, rfl, rfl⟩

theorem CoopKept.trans {s t u : State} (h : CoopKept s t) (k : CoopKept t u) : CoopKept s u :=
  ⟨k.params.trans h.params, k.cfg.trans h.cfg, k.periodUs.trans h.periodUs, k.coop.trans h.coop⟩

theorem State.outside_coopKept (s : State) (e : Event) : CoopKept s (s.outside e) := by
  cases e <;> simp only [State.outside, State.tickDue]
  case tick c => split <;> constructor <;> simp
  all_goals exact ⟨rfl, rfl, rfl, rfl⟩

theorem State.runUntilCoop_coopKept (script : List Event) (s : State) :
    CoopKept s (s.runUntilCoop script) := by
  induction script generalizing s with
  | nil => exact ⟨rfl, rfl, rfl, rfl⟩
  | cons e rest ih =>
    cases e <;> simp only [State.runUntilCoop]
    case coop => exact ⟨rfl, rfl, rfl, rfl⟩
    all_goals exact (State.outside_coopKept s _).trans (ih _)

theorem State.yield_coopKept (s : State) : CoopKept s s.yield := s.runUntilCoop_coopKept _

@[simp] theorem State.yield_params (s : State) : s.yield.params = s.params := s.yield_coopKept.params
@[simp] theorem State.yield_cfg (s : State) : s.yield.cfg = s.cfg := s.yield_coopKept.cfg
@[simp] theorem State.yield_periodUs (s : State) : s.yield.periodUs = s.periodUs :=
  s.yield_coopKept.periodUs
@[simp] theorem State.yield_coop (s : State) : s.yield.coop = s.coop := s.yield_coopKept.coop

/-- With nothing left of the script, nothing falls inside a handler. -/
@[simp] theorem State.yield_quiet (s : State) (h : s.sched.script = []) : s.yield = s := by
  rw [State.yield, h]
  show { s with sched.script := [] } = s
  rw [← h]

/-- HOST may have removed some of the oldest outbound bytes; nothing else changes that sequence. -/
theorem State.runUntilCoop_outbound (script : List Event) (s : State) :
    ∃ n, (s.runUntilCoop script).ext.outbound = s.ext.outbound.drop n := by
  induction script generalizing s with
  | nil => exact ⟨0, rfl⟩
  | cons e rest ih =>
    cases e <;> simp only [State.runUntilCoop]
    case coop => exact ⟨0, rfl⟩
    case hostRead k =>
      obtain ⟨n, h⟩ := ih (s.outside (.hostRead k))
      exact ⟨k + n, by rw [h]; simp [State.outside]⟩
    case tick c =>
      obtain ⟨n, h⟩ := ih (s.outside (.tick c))
      refine ⟨n, ?_⟩
      rw [h]
      simp only [State.outside, State.tickDue]
      split <;> simp
    all_goals exact ih _

theorem State.yield_outbound (s : State) : ∃ n, s.yield.ext.outbound = s.ext.outbound.drop n :=
  s.runUntilCoop_outbound _

/-- With no tick in the script, what falls inside a handler writes no register of TICK, and no tick
is left in the script. -/
theorem State.runUntilCoop_noTicks (script : List Event) (s : State) (h : noTicks script = true) :
    (s.runUntilCoop script).tick = s.tick ∧
    noTicks (s.runUntilCoop script).sched.script = true := by
  induction script generalizing s with
  | nil => exact ⟨rfl, rfl⟩
  | cons e rest ih =>
    cases e <;> simp only [State.runUntilCoop]
    case tick c => simp [noTicks] at h
    case coop => simpa [noTicks] using h
    all_goals exact ih _ (by simpa [noTicks] using h)

theorem State.yield_noTicks (s : State) (h : noTicks s.sched.script = true) :
    s.yield.tick = s.tick ∧ noTicks s.yield.sched.script = true :=
  s.runUntilCoop_noTicks _ h

/-! ## What inputs leave in the external state -/

/-- What falls inside a handler keeps the unread inbound bytes and only appends to them, leaves in the
store what it held or what ENV has put there, and leaves a part of the script (R50, R234). -/
theorem State.runUntilCoop_inputs (script : List Event) (s : State) :
    (∃ more, (s.runUntilCoop script).ext.inbound = s.ext.inbound ++ more) ∧
    ((s.runUntilCoop script).ext.store = s.ext.store ∨
      .envStore (s.runUntilCoop script).ext.store ∈ script) ∧
    (s.runUntilCoop script).sched.script <:+ script := by
  induction script generalizing s with
  | nil => exact ⟨⟨[], by simp [State.runUntilCoop]⟩, .inl rfl, List.nil_suffix⟩
  | cons e rest ih =>
    have suffix {t : List Event} (h : t <:+ rest) : t <:+ e :: rest := h.trans (List.suffix_cons e rest)
    cases e <;> simp only [State.runUntilCoop]
    case coop => exact ⟨⟨[], by simp⟩, .inl trivial, List.suffix_cons _ _⟩
    case host bytes =>
      obtain ⟨⟨more, h1⟩, h2, h3⟩ := ih (s.outside (.host bytes))
      exact ⟨⟨bytes ++ more, by rw [h1]; simp [State.outside]⟩,
        h2.imp id (List.mem_cons_of_mem _), suffix h3⟩
    case envStore bytes =>
      obtain ⟨h1, h2, h3⟩ := ih (s.outside (.envStore bytes))
      refine ⟨h1, .inr ?_, suffix h3⟩
      rcases h2 with h2 | h2
      · rw [h2]
        simp [State.outside]
      · exact List.mem_cons_of_mem _ h2
    case tick c =>
      obtain ⟨⟨more, h1⟩, h2, h3⟩ := ih (s.outside (.tick c))
      have hi : (s.outside (.tick c)).ext.inbound = s.ext.inbound ∧
          (s.outside (.tick c)).ext.store = s.ext.store := by
        simp only [State.outside, State.tickDue]
        split <;> simp
      exact ⟨⟨more, by rw [h1, hi.1]⟩, (hi.2 ▸ h2).imp id (List.mem_cons_of_mem _), suffix h3⟩
    all_goals
      obtain ⟨h1, h2, h3⟩ := ih (s.outside _)
      exact ⟨h1, h2.imp id (List.mem_cons_of_mem _), suffix h3⟩

theorem State.yield_inbound (s : State) : ∃ more, s.yield.ext.inbound = s.ext.inbound ++ more :=
  (s.runUntilCoop_inputs _).1

theorem State.yield_store (s : State) :
    s.yield.ext.store = s.ext.store ∨ .envStore s.yield.ext.store ∈ s.sched.script :=
  (s.runUntilCoop_inputs _).2.1

theorem State.yield_suffix (s : State) : s.yield.sched.script <:+ s.sched.script :=
  (s.runUntilCoop_inputs _).2.2

/-- With no input in the script, what falls inside a handler changes nothing of HOST's and ENV's, and
no input is left in the script. -/
theorem State.runUntilCoop_noInputs (script : List Event) (s : State) (h : noInputs script = true) :
    (s.runUntilCoop script).ext = { s.ext with trace := (s.runUntilCoop script).ext.trace } ∧
    noInputs (s.runUntilCoop script).sched.script = true := by
  induction script generalizing s with
  | nil => exact ⟨rfl, rfl⟩
  | cons e rest ih =>
    cases e <;> simp only [State.runUntilCoop]
    case coop => exact ⟨trivial, h⟩
    case tick c =>
      obtain ⟨h1, h2⟩ := ih (s.outside (.tick c)) h
      refine ⟨?_, h2⟩
      rw [h1]
      simp only [State.outside, State.tickDue]
      split
      · rfl
      · rw [s.tickStep_frame]
    all_goals exact absurd h (by exact Bool.false_ne_true)

theorem State.yield_noInputs (s : State) (h : noInputs s.sched.script = true) :
    s.yield.ext = { s.ext with trace := s.yield.ext.trace } ∧
    noInputs s.yield.sched.script = true :=
  s.runUntilCoop_noInputs _ h

end Sys2Proof.Machine
end

