-- ==== Sys2Proof/Laws/Wire.lean ====
section
/-! SUPPORT. Facts of the wire: the integrity generators as folds, and the two directions of the
byte orders. -/

namespace Sys2Proof

/-- The forced loop of `crc8` is the plain fold of R113. -/
theorem crcRun_eq_foldl (poly : Byte) (s : List Byte) (c : Byte) :
    crcRun poly s c = s.foldl (crcByte poly) c := by
  induction s generalizing c with
  | nil => rfl
  | cons b rest ih =>
    rw [crcRun, List.foldl_cons]
    split
    · next h => rw [ih, BitVec.eq_of_toNat_eq (x := 0) (y := crcByte poly c b) (by simp [h])]
    · next n h => rw [ih, ← Nat.succ_eq_add_one, ← h, BitVec.ofNat_toNat, BitVec.setWidth_eq]

theorem crc8_eq_foldl (p : Config.Params) (s : List Byte) :
    crc8 p s = s.foldl (crcByte p.crcPoly) p.crcInit ^^^ p.crcXorOut := by
  rw [crc8, crcRun_eq_foldl]

@[simp] theorem checksum8_nil : checksum8 [] = 0 := rfl

theorem foldl_add_start (s : List Byte) (c : Byte) : s.foldl (· + ·) c = c + checksum8 s := by
  induction s generalizing c with
  | nil => simp
  | cons b rest ih =>
    simp only [checksum8, List.foldl_cons]
    rw [ih, ih (0 + b)]
    ac_nf

theorem checksum8_cons (b : Byte) (s : List Byte) : checksum8 (b :: s) = b + checksum8 s := by
  rw [checksum8, List.foldl_cons, foldl_add_start]
  simp

@[simp] theorem be16_length (v : U16) : (be16 v).length = 2 := rfl
@[simp] theorem be32_length (v : U32) : (be32 v).length = 4 := rfl
@[simp] theorem le16_length (v : U16) : (le16 v).length = 2 := rfl

/-- Reading back a 16-bit field (R91). -/
@[simp] theorem word16_bytes (v : U16) : word16 (v.extractLsb' 8 8) (v.extractLsb' 0 8) = v := by
  ext i hi
  simp [word16]
  grind

/-- Reading back a 32-bit field (R91). -/
@[simp] theorem word32_bytes (v : U32) :
    word32 (v.extractLsb' 24 8) (v.extractLsb' 16 8) (v.extractLsb' 8 8) (v.extractLsb' 0 8) = v := by
  ext i hi
  simp [word32]
  grind

end Sys2Proof
end

