-- ==== Sys2Proof/Laws/Coop.lean ====
section
/-! SUPPORT. What a step can be, what a COOP step can be, and what reset, an acknowledgment and an
error do: the lemmas a proof cites instead of unfolding `step`. -/

namespace Sys2Proof.Machine

/-! ## The step -/

/-- A step with a listed event runs it on the rest of the list. -/
theorem step_scripted (s : State) (e : Event) (rest : List Event) (h : s.sched.script = e :: rest) :
    step s = ({ s with sched.script := rest } : State).runEvent e := by
  simp [step, h]

/-- A step with no listed event: time passes, and the agent whose turn it is moves. -/
theorem step_free (s : State) (h : s.Quiet) :
    step s = s.freeAdvance.flipTurn.runEvent s.freeEvent := by
  simp [step, h]

/-- Every step is an event run on a state that differs from `s` at most in the script, the turn, the
free-value counter and the time base. -/
theorem step_cases (s : State) :
    ∃ (sched : SchedState) (t : U32) (e : Event),
      step s = ({ s with sched := sched, ext.timeBase := t } : State).runEvent e := by
  cases h : s.sched.script with
  | nil =>
    rw [step_free s h]
    exact ⟨_, _, _, rfl⟩
  | cons e rest =>
    rw [step_scripted s e rest h]
    exact ⟨_, s.ext.timeBase, e, rfl⟩

/-- An event that is not COOP's own always gives a next state. -/
theorem State.runEvent_outside (s : State) (e : Event) (h : e ≠ .coop) :
    s.runEvent e = .next (s.outside e) := by
  cases e <;> first | rfl | exact absurd rfl h

/-! ## The loop pass -/

/-- A complete body: `exec` of what it decodes to, or of the error's response. -/
theorem State.receiveBody_complete (s : State) (h : s.coop.plen.toNat + 1 ≤ s.ext.inbound.length) :
    s.receiveBody = exec s.bodyInstr s.afterBody := by
  simp [State.receiveBody, State.bodyComplete, State.available, h]

/-- A body that is not complete: no effect. -/
theorem State.receiveBody_partial (s : State) (h : s.ext.inbound.length < s.coop.plen.toNat + 1) :
    s.receiveBody = .next s := by
  have : ¬ s.coop.plen.toNat + 1 ≤ s.ext.inbound.length := by omega
  simp [State.receiveBody, State.bodyComplete, State.available, this]

/-- A COOP step is `exec` of one instruction or one of the steps that run none. -/
theorem State.coopStep_cases (s : State) :
    (s.coop.pos = .passStart ∧ s.coop.pstate = .awaitBody ∧ s.coopStep = s.receiveBody) ∨
    (s.coop.pos = .passStart ∧ s.coop.pstate = .awaitLen ∧ 0 < s.ext.inbound.length ∧
      s.coopStep = .next s.receiveLength) ∨
    (s.coop.pos = .passStart ∧ s.coop.pstate = .awaitLen ∧ s.ext.inbound = [] ∧
      s.coopStep = .next (s.setPos .snapFlag)) ∨
    (s.coop.pos = .snapFlag ∧ s.coopStep = .next s.snapFlagStep) ∨
    (s.coop.pos = .snapAvail ∧ s.coopStep = .next s.snapAvailStep) ∨
    (s.coop.pos = .snapEnter ∧ s.coopStep = .next (s.setPos .snapWindow)) ∨
    (s.coop.pos = .snapWindow ∧ s.coopStep = .next s.snapCopyStep) ∨
    (s.coop.pos = .syncAvail ∧ s.coopStep = .next s.syncAvailStep) ∨
    (s.coop.pos = .syncClock ∧ s.coopStep = .next s.syncClockStep) ∨
    (∃ t, s.coop.pos = .syncMark t ∧ s.coopStep = .next (s.syncMarkStep t)) ∨
    (∃ i, s.coop.pos = .send i ∧ s.coopStep = exec i (s.setPos (afterSend i))) := by
  cases hp : s.coop.pos with
  | passStart =>
    cases hb : s.coop.pstate with
    | awaitBody => simp [State.coopStep, hp, State.loopPass, hb]
    | awaitLen =>
      cases hi : s.ext.inbound with
      | nil => simp [State.coopStep, hp, State.loopPass, hb, State.available, hi]
      | cons b more => simp [State.coopStep, hp, State.loopPass, hb, State.available, hi]
  | _ => simp [State.coopStep, hp]

/-! ## Replies -/

/-- The acknowledgment's bytes (R96). -/
theorem State.ack_bytes (s : State) (o : Opcode) :
    s.ack o =
      { s with
        ext.outbound :=
          s.ext.outbound ++ [0x02, 0xA0, opcodeByte o, checksum8 [0xA0, opcodeByte o]] } := rfl

/-- The error response's bytes (R85). -/
theorem State.raise_bytes (s : State) (e : CommandError) (op : Byte) :
    s.raise e op =
      { s with
        ext.outbound :=
          s.ext.outbound ++ [0x03, 0xA1, op, errorCode e, checksum8 [0xA1, op, errorCode e]] } := rfl

/-! ## Reset -/

@[simp] theorem State.deviceReset_params (s : State) : s.deviceReset.params = s.params := rfl
@[simp] theorem State.deviceReset_cfg (s : State) :
    s.deviceReset.cfg = loadConfig s.params s.ext.store := rfl
@[simp] theorem State.deviceReset_periodUs (s : State) :
    s.deviceReset.periodUs = periodOf (loadConfig s.params s.ext.store).senseRate := rfl
@[simp] theorem State.deviceReset_coop (s : State) :
    s.deviceReset.coop = CoopRegs.reset s.params s.sched.freeIdx := rfl
@[simp] theorem State.deviceReset_tick (s : State) :
    s.deviceReset.tick = TickRegs.reset s.params := rfl
@[simp] theorem State.deviceReset_tickPending (s : State) : s.deviceReset.tickPending = none := rfl
@[simp] theorem State.deviceReset_ext (s : State) :
    s.deviceReset.ext =
      { s.ext with trace := s.ext.trace ++ resetTrace (loadConfig s.params s.ext.store) } := rfl

end Sys2Proof.Machine
end

