-- ==== Sys2Proof/Laws/Invariant.lean ====
section
/-! SUPPORT. The trajectory queue as a list, and the invariant through the operations that handlers
share: a tick, an input, and whatever falls between two COOP steps. -/

namespace Sys2Proof.Machine

/-! ## The queue as a list -/

/-- The number of queued segments, without the modulus (R41). -/
theorem State.queueCount_cases (s : State) (hh : s.coop.qHead < s.params.qSlots)
    (ht : s.tick.qTail < s.params.qSlots) :
    (s.tick.qTail ≤ s.coop.qHead ∧ s.queueCount = s.coop.qHead - s.tick.qTail) ∨
    (s.coop.qHead < s.tick.qTail ∧
      s.queueCount = s.coop.qHead + s.params.qSlots - s.tick.qTail) := by
  unfold State.queueCount
  rcases Nat.lt_or_ge s.coop.qHead s.tick.qTail with h | h
  · exact .inr ⟨h, Nat.mod_eq_of_lt (by omega)⟩
  · refine .inl ⟨h, ?_⟩
    rw [show s.coop.qHead + s.params.qSlots - s.tick.qTail
        = (s.coop.qHead - s.tick.qTail) + s.params.qSlots by omega, Nat.add_mod_right,
      Nat.mod_eq_of_lt (by omega)]

/-- Taking the front of the queue: the live region is the segment at the tail, then the live
region after it (R124). -/
theorem State.liveSegments_pop (s : State) (g : Segment) (hh : s.coop.qHead < s.params.qSlots)
    (ht : s.tick.qTail < s.params.qSlots) (hne : s.queueEmpty = false) :
    s.liveSegments = s.readQueue s.tick.qTail :: (s.loadSegment g).liveSegments := by
  have hne' : s.coop.qHead ≠ s.tick.qTail := by simpa [State.queueEmpty] using hne
  have hn : s.nextSlot s.tick.qTail < s.params.qSlots := Nat.mod_lt _ (by omega)
  have hcount : s.queueCount = (s.loadSegment g).queueCount + 1 := by
    have h1 := s.queueCount_cases hh ht
    have h2 := (s.loadSegment g).queueCount_cases (by simpa using hh) (by simpa using hn)
    simp only [State.loadSegment_params, State.loadSegment_coop, State.loadSegment_tick] at h2
    unfold State.nextSlot at h2 hn
    rcases Nat.lt_or_ge (s.tick.qTail + 1) s.params.qSlots with h | h
    · rw [Nat.mod_eq_of_lt h] at h2
      omega
    · rw [show s.tick.qTail + 1 = s.params.qSlots by omega, Nat.mod_self] at h2
      omega
  unfold State.liveSegments
  rw [hcount, List.range_succ_eq_map, List.map_cons, List.map_map]
  congr 1
  · rw [Nat.add_zero, Nat.mod_eq_of_lt ht]
  · refine List.map_congr_left fun k _ => ?_
    simp only [Function.comp, State.loadSegment_tick, State.loadSegment_params, State.nextSlot,
      State.readQueue, State.loadSegment_coop, Nat.mod_add_mod]
    congr 2
    omega

/-! ## Enqueuing (R122, R123) -/

/-- The slots of the live region never include the head's (R72). -/
theorem State.liveSlot_ne_head (s : State) (hh : s.coop.qHead < s.params.qSlots)
    (ht : s.tick.qTail < s.params.qSlots) (k : Nat) (hk : k < s.queueCount) :
    (s.tick.qTail + k) % s.params.qSlots ≠ s.coop.qHead := by
  have hc := s.queueCount_cases hh ht
  rcases Nat.lt_or_ge (s.tick.qTail + k) s.params.qSlots with h | h
  · rw [Nat.mod_eq_of_lt h]
    omega
  · rw [Nat.mod_eq_sub_mod h, Nat.mod_eq_of_lt (by omega)]
    omega

/-- Writing the head's slot leaves the live region as it is (R72). -/
theorem State.liveSegments_write (s : State) (seg : Segment) (hh : s.coop.qHead < s.params.qSlots)
    (ht : s.tick.qTail < s.params.qSlots) :
    (s.writeQueue s.coop.qHead seg).liveSegments = s.liveSegments := by
  unfold State.liveSegments
  refine List.map_congr_left fun k hk => ?_
  have hne := s.liveSlot_ne_head hh ht k (List.mem_range.mp hk)
  simp only [State.readQueue, State.writeQueue_coop, State.writeQueue_tick, State.writeQueue_params]
  rw [List.getD_eq_getElem?_getD, List.getD_eq_getElem?_getD, List.getElem?_set_ne hne.symm]

/-- Publishing the head's slot puts its record at the end of the live region, unless the queue was
full (R122 line 4). -/
theorem State.liveSegments_publish (s : State) (hh : s.coop.qHead < s.params.qSlots)
    (ht : s.tick.qTail < s.params.qSlots) (hf : s.queueFull = false) :
    (s.setQHead (s.nextSlot s.coop.qHead)).liveSegments =
      s.liveSegments ++ [s.readQueue s.coop.qHead] := by
  have hf' : (s.coop.qHead + 1) % s.params.qSlots ≠ s.tick.qTail := by
    simpa [State.queueFull, State.nextSlot] using hf
  have hn : s.nextSlot s.coop.qHead < s.params.qSlots := Nat.mod_lt _ (by omega)
  have h1 := s.queueCount_cases hh ht
  have hcount : (s.setQHead (s.nextSlot s.coop.qHead)).queueCount = s.queueCount + 1 := by
    have h2 := (s.setQHead (s.nextSlot s.coop.qHead)).queueCount_cases (by simpa using hn)
      (by simpa using ht)
    simp only [State.setQHead_params, State.setQHead_coop, State.setQHead_tick] at h2
    generalize (s.setQHead (s.nextSlot s.coop.qHead)).queueCount = n at h2 ⊢
    unfold State.nextSlot at h2 hn
    rcases Nat.lt_or_ge (s.coop.qHead + 1) s.params.qSlots with h | h
    · rw [Nat.mod_eq_of_lt h] at h2 hf'
      omega
    · rw [show s.coop.qHead + 1 = s.params.qSlots by omega, Nat.mod_self] at h2 hf'
      omega
  have hlast : (s.tick.qTail + s.queueCount) % s.params.qSlots = s.coop.qHead := by
    rcases h1 with ⟨hle, h1⟩ | ⟨hlt, h1⟩
    · rw [h1, Nat.mod_eq_of_lt (by omega)]
      omega
    · rw [h1, show s.tick.qTail + (s.coop.qHead + s.params.qSlots - s.tick.qTail)
          = s.coop.qHead + s.params.qSlots by omega, Nat.add_mod_right, Nat.mod_eq_of_lt hh]
  unfold State.liveSegments
  rw [hcount, List.range_succ, List.map_append, List.map_singleton]
  simp only [State.setQHead_tick, State.setQHead_params, hlast]
  rfl

/-- Publishing onto a full queue empties the live region; `Enqueue` never does it (R122). -/
theorem State.liveSegments_publish_full (s : State)
    (hf : s.queueFull = true) :
    (s.setQHead (s.nextSlot s.coop.qHead)).liveSegments = [] := by
  have hf' : s.nextSlot s.coop.qHead = s.tick.qTail := by simpa [State.queueFull] using hf
  have : (s.setQHead (s.nextSlot s.coop.qHead)).queueCount = 0 := by
    simp [State.queueCount, hf']
  simp [State.liveSegments, this]

/-! ## Interpolation stays between the ends (R128) -/

theorem tdiv_between (k T d : Int) (hk : 0 ≤ k) (hkT : k ≤ T) (hT : 0 < T) :
    (0 ≤ d → 0 ≤ Int.tdiv (k * d) T ∧ Int.tdiv (k * d) T ≤ d) ∧
    (d ≤ 0 → d ≤ Int.tdiv (k * d) T ∧ Int.tdiv (k * d) T ≤ 0) := by
  have pos : ∀ d : Int, 0 ≤ d → 0 ≤ Int.tdiv (k * d) T ∧ Int.tdiv (k * d) T ≤ d := by
    intro d hd
    rw [Int.tdiv_eq_ediv_of_nonneg (by positivity)]
    refine ⟨Int.ediv_nonneg (by positivity) hT.le, ?_⟩
    exact Int.ediv_le_of_le_mul hT (by nlinarith)
  refine ⟨pos d, fun hd => ?_⟩
  have h := pos (-d) (by omega)
  rw [Int.mul_neg, Int.neg_tdiv] at h
  omega

/-- The sum that `Advance` forms for a Linear segment is the exact one (R127, R128). -/
theorem State.nextAcc_toInt (s : State) (h : s.SegmentOk) (hlt : s.tick.segStep < s.tick.segTotal)
    (hl : s.tick.segShape = .linear) :
    s.nextAcc.toInt =
      ((s.tick.segStep.toNat : Int) + 1) * ((s.tick.segEnd.toNat : Int) - s.tick.segStart.toNat) := by
  have hacc := h.2.2.2 hl
  have hk : s.tick.segStep.toNat < s.tick.segTotal.toNat := hlt
  have hT := s.tick.segTotal.isLt
  have he := s.tick.segEnd.isLt
  have hs := s.tick.segStart.isLt
  unfold State.nextAcc
  rw [hl]
  dsimp only
  rw [BitVec.toInt_add, BitVec.toInt_sub]
  have e1 : (s.tick.segEnd.setWidth 64).toInt = (s.tick.segEnd.toNat : Int) := by
    rw [BitVec.toInt_setWidth]
    simp [Int.bmod]
    omega
  have e2 : (s.tick.segStart.setWidth 64).toInt = (s.tick.segStart.toNat : Int) := by
    rw [BitVec.toInt_setWidth]
    simp [Int.bmod]
    omega
  rw [e1, e2, hacc]
  have hd1 : (s.tick.segEnd.toNat : Int) - s.tick.segStart.toNat < 65536 := by omega
  have hd2 : -65536 < (s.tick.segEnd.toNat : Int) - s.tick.segStart.toNat := by omega
  have hk1 : (s.tick.segStep.toNat : Int) + 1 < 4294967297 := by omega
  have hk0 : (0 : Int) ≤ s.tick.segStep.toNat := by omega
  generalize (s.tick.segEnd.toNat : Int) - s.tick.segStart.toNat = d at hd1 hd2 ⊢
  generalize (s.tick.segStep.toNat : Int) = k at hk0 hk1 ⊢
  have u : (k + 1) * d < 2 ^ 62 := by nlinarith
  have l : -2 ^ 62 < (k + 1) * d := by nlinarith
  rw [show (k + 1) * d = k * d + d by ring] at u l ⊢
  rw [Int.bmod_eq_of_le (n := d) (by omega) (by omega), Int.bmod_eq_of_le (by omega) (by omega)]

/-- The value of a Linear segment's step lies between its ends (R128). -/
theorem State.segValue_between (s : State) (h : s.SegmentOk) (hlt : s.tick.segStep < s.tick.segTotal)
    (hl : s.tick.segShape = .linear) :
    (s.segValue.toNat : Int) =
      s.tick.segStart.toNat +
        Int.tdiv (((s.tick.segStep.toNat : Int) + 1) *
          ((s.tick.segEnd.toNat : Int) - s.tick.segStart.toNat)) s.tick.segTotal.toNat ∧
    min s.tick.segStart.toNat s.tick.segEnd.toNat ≤ s.segValue.toNat ∧
    s.segValue.toNat ≤ max s.tick.segStart.toNat s.tick.segEnd.toNat := by
  have hk : s.tick.segStep.toNat < s.tick.segTotal.toNat := hlt
  have he := s.tick.segEnd.isLt
  have hs := s.tick.segStart.isLt
  have hb := tdiv_between ((s.tick.segStep.toNat : Int) + 1) s.tick.segTotal.toNat
    ((s.tick.segEnd.toNat : Int) - s.tick.segStart.toNat) (by omega) (by omega) (by omega)
  have hv : s.segValue = BitVec.ofInt 16 ((s.tick.segStart.toNat : Int) +
      Int.tdiv (((s.tick.segStep.toNat : Int) + 1) *
        ((s.tick.segEnd.toNat : Int) - s.tick.segStart.toNat)) s.tick.segTotal.toNat) := by
    unfold State.segValue
    rw [hl]
    dsimp only
    rw [linearValue, s.nextAcc_toInt h hlt hl]
  rw [hv, BitVec.toNat_ofInt]
  generalize Int.tdiv _ _ = q at hb ⊢
  rcases Int.le_total 0 ((s.tick.segEnd.toNat : Int) - s.tick.segStart.toNat) with hd | hd
  · have := hb.1 hd
    omega
  · have := hb.2 hd
    omega

theorem State.segValue_le (s : State) (h : s.SegmentOk) (hlt : s.tick.segStep < s.tick.segTotal) :
    s.segValue.toNat ≤ maxDuty s.cfg := by
  cases hl : s.tick.segShape
  · have : s.segValue = s.tick.segEnd := by simp [State.segValue, hl]
    rw [this]
    exact h.2.1
  · have := (s.segValue_between h hlt hl).2.2
    have := h.1
    have := h.2.1
    omega

/-! ## The invariant through a tick -/

/-- The invariant, but for the duty driven last: what the parts of a tick keep. -/
theorem State.Inv.setTick {s : State} (h : s.Inv) (t : TickRegs)
    (ring : t.ring.length = s.params.ringN) (tail : t.qTail < s.params.qSlots)
    (widx : t.widx < s.params.ringN) (out : t.dutyOut.toNat ≤ maxDuty s.cfg)
    (live : ∀ g ∈ ({ s with tick := t } : State).liveSegments, segmentLegal s.cfg g)
    (active : t.autoActive = true → ({ s with tick := t } : State).SegmentOk) :
    ({ s with tick := t } : State).Inv :=
  { params := h.params, cfg := h.cfg, period := h.period, queueLength := h.queueLength
    ringLength := ring, head := h.head, tail := tail, widx := widx, dutyCmd := h.dutyCmd
    dutyOut := out, live := live, active := active, receiver := h.receiver, place := h.place
    pending := h.pending }

theorem State.start_inv (s : State) (h : s.Inv) : s.start.2.Inv := by
  unfold State.start
  split
  · exact h.setTick _ h.ringLength h.tail h.widx h.dutyOut h.live (by simp)
  · next e =>
    have e' : s.queueEmpty = false := by simpa using e
    have hp := s.liveSegments_pop (s.readQueue s.tick.qTail) h.head h.tail e'
    have hg : segmentLegal s.cfg (s.readQueue s.tick.qTail) := h.live _ (by simp [hp])
    refine h.setTick (s.loadSegment (s.readQueue s.tick.qTail)).tick h.ringLength
      (Nat.mod_lt _ (by have := h.tail; omega)) h.widx h.dutyOut
      (fun g m => h.live g (by rw [hp]; exact List.mem_cons_of_mem _ m)) fun _ => ?_
    refine ⟨hg.1, hg.2, ?_, fun _ => by simp [State.loadSegment]⟩
    simp only [State.loadSegment_tick]
    generalize (s.readQueue s.tick.qTail).duration / s.periodUs = t
    by_cases ht : t = 0
    · simp [ht]
    · left
      bv_omega

/-- Skipping completed segments keeps the invariant, holds a legal duty, or leaves a segment that
is not completed (R129). -/
theorem State.skipCompleted_inv (n : Nat) (s : State) (h : s.Inv) (ha : s.tick.autoActive = true) :
    (s.skipCompleted n).2.Inv ∧
    (∀ v, (s.skipCompleted n).1 = some v → v.toNat ≤ maxDuty s.cfg) ∧
    ((s.skipCompleted n).1 = none →
      (s.skipCompleted n).2.tick.autoActive = true ∧
      (s.skipCompleted n).2.tick.segStep < (s.skipCompleted n).2.tick.segTotal) := by
  induction n generalizing s with
  | zero => exact ⟨h, by simp only [State.skipCompleted]; rintro v ⟨⟩; exact (h.active ha).2.1, by simp [State.skipCompleted]⟩
  | succ n ih =>
    rw [State.skipCompleted]
    split
    · next hlt => exact ⟨h, by simp, fun _ => ⟨ha, hlt⟩⟩
    · have hs := s.start_inv h
      split
      · next s' e =>
        rw [e] at hs
        exact ⟨hs, by rintro v ⟨⟩; exact (h.active ha).2.1, by simp⟩
      · next s' e =>
        rw [e] at hs
        have hc : s'.cfg = s.cfg := by
          have := s.start_tickOnly
          rw [e] at this
          have := congrArg State.cfg this
          exact this
        have ha' : s'.tick.autoActive = true := by
          unfold State.start at e
          split at e
          · cases e
          · cases e; rfl
        rw [← hc]
        exact ih s' hs ha'

/-- One step of the active segment keeps the invariant (R125, R130). -/
theorem State.segmentStep_inv (s : State) (h : s.Inv) (ha : s.tick.autoActive = true)
    (hlt : s.tick.segStep < s.tick.segTotal) :
    s.segmentStep.2.Inv ∧ s.segmentStep.1.toNat ≤ maxDuty s.cfg := by
  have hseg := h.active ha
  have hk : s.tick.segStep.toNat < s.tick.segTotal.toNat := hlt
  have hT := s.tick.segTotal.isLt
  have hv := s.segValue_le hseg hlt
  -- the state between the last addition and the chaining test, with the segment still in range
  have mid : ∀ a : Bool, (a = true → s.tick.segStep + 1 < s.tick.segTotal) →
      ({ s with tick.segAcc := s.nextAcc, tick.segStep := s.tick.segStep + 1, tick.autoActive := a } : State).Inv := by
    intro a hlt'
    refine h.setTick _ h.ringLength h.tail h.widx h.dutyOut h.live fun e => ?_
    refine ⟨hseg.1, hseg.2.1, .inl (hlt' e), fun hl => ?_⟩
    have := s.nextAcc_toInt hseg hlt hl
    simp only
    rw [this, BitVec.toNat_add, Nat.mod_eq_of_lt (by simp; omega)]
    simp
  have chain : ∀ t : State, ({ t with tick.autoActive := false } : State).start.2 = t.start.2 := by
    intro t
    unfold State.start
    rw [show ({ t with tick.autoActive := false } : State).queueEmpty = t.queueEmpty from rfl]
    split <;> rfl
  unfold State.segmentStep
  dsimp only
  split
  · next e =>
    refine ⟨?_, hv⟩
    rw [← chain]
    exact State.start_inv _ (mid false (by simp))
  · next e =>
    refine ⟨?_, hv⟩
    have := mid true fun _ => by bv_omega
    rwa [← ha] at this

theorem State.advance_inv (s : State) (h : s.Inv) (ha : s.tick.autoActive = true) :
    s.advance.2.Inv ∧ s.advance.1.toNat ≤ maxDuty s.cfg := by
  obtain ⟨hi, hv, hn⟩ := s.skipCompleted_inv s.params.qSlots h ha
  have ht := s.skipCompleted_tickOnly s.params.qSlots
  unfold State.advance
  split <;> next e => 
    rw [e] at hi hv hn ht
    first
    | exact ⟨hi, hv _ rfl⟩
    | have := State.segmentStep_inv _ hi (hn rfl).1 (hn rfl).2
      rw [show s.cfg = _ from (congrArg State.cfg ht).symm]
      exact this

theorem State.tickRequest_inv (s : State) (h : s.Inv) : s.tickRequest.Inv := by
  unfold State.tickRequest
  split
  · split
    · exact State.start_inv _
        (h.setTick { s.tick with autoSeen := s.coop.autoGen } h.ringLength h.tail h.widx h.dutyOut
          h.live h.active)
    · exact h
  · exact h.setTick _ h.ringLength h.tail h.widx h.dutyOut h.live (by simp)

theorem State.tickDuty_inv (s : State) (h : s.Inv) :
    s.tickDuty.2.Inv ∧ s.tickDuty.1.toNat ≤ maxDuty s.cfg := by
  unfold State.tickDuty
  split
  · next ha => exact s.advance_inv h ha
  · split
    · exact ⟨h.setTick { s.tick with dutySeen := s.coop.dutyGen } h.ringLength h.tail h.widx
        h.dutyOut h.live h.active, h.dutyCmd⟩
    · exact ⟨h, h.dutyOut⟩

/-- A tick keeps the invariant (R140, R143). -/
theorem State.tickStep_inv (s : State) (c : U16) (h : s.Inv) : (s.tickStep c).Inv := by
  obtain ⟨hi, hv⟩ := s.tickRequest.tickDuty_inv (s.tickRequest_inv h)
  have hc : s.tickRequest.cfg = s.tickRequest.tickDuty.2.cfg := by
    have := s.tickRequest.tickDuty_tickOnly
    exact (congrArg State.cfg this).symm
  rw [State.tickStep_eq]
  rw [hc] at hv
  generalize s.tickRequest.tickDuty.1 = d at *
  generalize s.tickRequest.tickDuty.2 = t at *
  have := hi.setTick ((t.tickDrive d).tickSample d c).tick
    (by simp [State.tickSample, State.tickDrive, hi.ringLength]) hi.tail
    (Nat.mod_lt _ (Nat.zero_lt_of_lt hi.widx)) hv hi.live hi.active
  exact { this with }

/-! ## The invariant through what falls between two COOP steps -/

theorem State.tickDue_inv (s : State) (c : U16) (h : s.Inv) : (s.tickDue c).Inv := by
  unfold State.tickDue
  split
  · next hw => exact { h with pending := fun _ => hw }
  · exact s.tickStep_inv c h

theorem State.takePending_inv (s : State) (h : ({ s with tickPending := none } : State).Inv) :
    s.takePending.Inv := by
  unfold State.takePending
  split
  · next e => rwa [← e] at h
  · exact State.tickStep_inv _ _ h

theorem State.outside_inv (s : State) (e : Event) (h : s.Inv) : (s.outside e).Inv := by
  cases e with
  | tick c => exact s.tickDue_inv c h
  | _ => exact { h with }

theorem State.runUntilCoop_inv (script : List Event) (s : State) (h : s.Inv) :
    (s.runUntilCoop script).Inv := by
  induction script generalizing s with
  | nil => exact { h with }
  | cons e rest ih =>
    cases e <;> simp only [State.runUntilCoop]
    case coop => exact { h with }
    all_goals exact ih _ (State.outside_inv s _ h)

theorem State.yield_inv (s : State) (h : s.Inv) : s.yield.Inv := s.runUntilCoop_inv _ h


end Sys2Proof.Machine
end

