-- ==== Sys2Proof/Laws/PerInstr.lean ====
section
/-! SUPPORT. The per-instruction family `FrameSize`: how many bytes each instruction's frame has
(R9, R81, R84, R86, R87, R92, R93). -/

namespace Sys2Proof.Laws.FrameSize

/-- The size of an instruction's frame, the sum its layout gives. -/
def size : Instr → Nat
  | .ping | .getStatus | .getDuty | .stopOutput => 3
  | .startStream | .stopStream | .startAutomation | .stopAutomation => 3
  | .saveSettings | .softReset | .saveAndReset => 3
  | .setOutputPin _ | .setSensePin _ => 4
  | .setPwmFreq _ => 7
  | .setDuty _ | .setDutyNoack _ | .setDutyFast _ => 5
  | .queueTrajSeg _ _ _ none => 8
  | .queueTrajSeg _ _ _ (some _) => 12
  | .respAck _ => 4
  | .respError _ _ => 5
  | .respStatus _ _ => 17
  | .respDuty _ => 5
  | .telemSnapshot samples => 4 * samples.length + 3
  | .telemTimesync _ => 7

/-- Under every parameter set, the encoded frame has that many bytes. -/
def Statement (i : Instr) : Prop := ∀ p : Config.Params, (encode p i).length = size i

theorem ping : Statement .ping := fun _ => rfl
theorem getStatus : Statement .getStatus := fun _ => rfl
theorem getDuty : Statement .getDuty := fun _ => rfl
theorem setOutputPin (pin : Byte) : Statement (.setOutputPin pin) := fun _ => rfl
theorem setSensePin (pin : Byte) : Statement (.setSensePin pin) := fun _ => rfl
theorem setPwmFreq (freq : U32) : Statement (.setPwmFreq freq) := fun _ => rfl
theorem setDuty (duty : U16) : Statement (.setDuty duty) := fun _ => rfl
theorem setDutyNoack (duty : U16) : Statement (.setDutyNoack duty) := fun _ => rfl
theorem setDutyFast (duty : U16) : Statement (.setDutyFast duty) := fun _ => rfl
theorem stopOutput : Statement .stopOutput := fun _ => rfl
theorem startStream : Statement .startStream := fun _ => rfl
theorem stopStream : Statement .stopStream := fun _ => rfl
theorem startAutomation : Statement .startAutomation := fun _ => rfl
theorem stopAutomation : Statement .stopAutomation := fun _ => rfl
theorem queueTrajSeg (startDuty endDuty : U16) (shape : Byte) (duration : Option U32) :
    Statement (.queueTrajSeg startDuty endDuty shape duration) := by
  cases duration <;> exact fun _ => rfl
theorem saveSettings : Statement .saveSettings := fun _ => rfl
theorem softReset : Statement .softReset := fun _ => rfl
theorem saveAndReset : Statement .saveAndReset := fun _ => rfl
theorem respAck (op : Byte) : Statement (.respAck op) := fun _ => rfl
theorem respError (op code : Byte) : Statement (.respError op code) := fun _ => rfl
theorem respStatus (fw : U16) (cfg : Config.ConfigRegs) : Statement (.respStatus fw cfg) :=
  fun _ => rfl
theorem respDuty (duty : U16) : Statement (.respDuty duty) := fun _ => rfl

/-- Four bytes a sample (R86). -/
theorem samplesBytes_length (samples : List Sample) :
    (samplesBytes samples).length = 4 * samples.length := by
  induction samples with
  | nil => rfl
  | cons x rest ih =>
    simp only [samplesBytes, List.flatMap_cons, List.length_append, List.length_cons] at ih ⊢
    rw [ih]
    simp [le16]
    omega

theorem telemSnapshot (samples : List Sample) : Statement (.telemSnapshot samples) := by
  intro p
  simp [encode, telemetryFrame, instrBody, samplesBytes_length, size]

theorem telemTimesync (t : U32) : Statement (.telemTimesync t) := fun _ => rfl

end Sys2Proof.Laws.FrameSize
end

