-- ==== Sys2Proof/Laws/Queue.lean ====
section
/-! SUPPORT. What ticks do to the trajectory queue: they take segments from its front and nothing
else (R72, R123, R124). -/

namespace Sys2Proof.Machine

/-- `t` has of `s`'s live segments all but some of the first, and COOP's registers as they were. -/
structure Popped (s t : State) : Prop where
  params : t.params = s.params
  coop : t.coop = s.coop
  tail : t.tick.qTail < s.params.qSlots
  live : ∃ n, t.liveSegments = s.liveSegments.drop n

/-- Nothing is taken while COOP's registers and the tail stay. -/
theorem Popped.ofTail {s t : State} (params : t.params = s.params) (coop : t.coop = s.coop)
    (tail : t.tick.qTail = s.tick.qTail) (ht : s.tick.qTail < s.params.qSlots) : Popped s t :=
  ⟨params, coop, by rw [tail]; exact ht, 0, by
    simp [State.liveSegments, State.queueCount, State.readQueue, params, coop, tail]⟩

theorem Popped.trans {s t u : State} (h : Popped s t) (k : Popped t u) : Popped s u := by
  obtain ⟨n, hn⟩ := h.live
  obtain ⟨m, hm⟩ := k.live
  exact ⟨k.params.trans h.params, k.coop.trans h.coop, h.params ▸ k.tail, n + m, by
    rw [hm, hn, List.drop_drop]⟩

/-- A state's index registers are inside the queue (R40, R41). -/
def State.QueueOk (s : State) : Prop :=
  s.coop.qHead < s.params.qSlots ∧ s.tick.qTail < s.params.qSlots

theorem State.Inv.queueOk {s : State} (h : s.Inv) : s.QueueOk := ⟨h.head, h.tail⟩

theorem Popped.queueOk {s t : State} (h : Popped s t) (hs : s.QueueOk) : t.QueueOk :=
  ⟨by rw [h.coop, h.params]; exact hs.1, by rw [h.params]; exact h.tail⟩

theorem State.start_popped (s : State) (h : s.QueueOk) : Popped s s.start.2 := by
  unfold State.start
  split
  · exact .ofTail rfl rfl rfl h.2
  · next e =>
    have hp := s.liveSegments_pop (s.readQueue s.tick.qTail) h.1 h.2 (by simpa using e)
    exact ⟨rfl, rfl, Nat.mod_lt _ (Nat.zero_lt_of_lt h.2), 1, by rw [hp]; rfl⟩

theorem State.skipCompleted_popped (n : Nat) (s : State) (h : s.QueueOk) :
    Popped s (s.skipCompleted n).2 := by
  induction n generalizing s with
  | zero => exact .ofTail rfl rfl rfl h.2
  | succ n ih =>
    rw [State.skipCompleted]
    split
    · exact .ofTail rfl rfl rfl h.2
    · have hs := s.start_popped h
      split <;> next s' e =>
        rw [e] at hs
        first | exact hs | exact hs.trans (ih s' (hs.queueOk h))

theorem State.segmentStep_popped (s : State) (h : s.QueueOk) : Popped s s.segmentStep.2 := by
  have mid : Popped s { s with tick.segAcc := s.nextAcc, tick.segStep := s.tick.segStep + 1 } :=
    .ofTail rfl rfl rfl h.2
  unfold State.segmentStep
  dsimp only
  split
  · exact mid.trans (State.start_popped _ (mid.queueOk h))
  · exact mid

theorem State.advance_popped (s : State) (h : s.QueueOk) : Popped s s.advance.2 := by
  have hs := s.skipCompleted_popped s.params.qSlots h
  unfold State.advance
  split <;> next e =>
    rw [e] at hs
    first | exact hs | exact hs.trans (State.segmentStep_popped _ (hs.queueOk h))

/-- A tick only takes segments from the front of the queue (R69, R72). -/
theorem State.tickStep_popped (s : State) (c : U16) (h : s.QueueOk) : Popped s (s.tickStep c) := by
  have hr : Popped s s.tickRequest := by
    unfold State.tickRequest
    split
    · split
      · have hq : Popped s { s with tick.autoSeen := s.coop.autoGen } := .ofTail rfl rfl rfl h.2
        exact hq.trans (State.start_popped _ (hq.queueOk h))
      · exact .ofTail rfl rfl rfl h.2
    · exact .ofTail rfl rfl rfl h.2
  have hr' := hr.queueOk h
  have hd : Popped s.tickRequest s.tickRequest.tickDuty.2 := by
    unfold State.tickDuty
    split
    · exact State.advance_popped _ hr'
    · split <;> exact .ofTail rfl rfl rfl hr'.2
  rw [State.tickStep_eq]
  exact (hr.trans hd).trans (.ofTail rfl rfl rfl (hd.queueOk hr').2)

theorem State.outside_popped (s : State) (e : Event) (h : s.QueueOk) : Popped s (s.outside e) := by
  cases e <;> simp only [State.outside, State.tickDue]
  case tick c =>
    split
    · exact .ofTail rfl rfl rfl h.2
    · exact s.tickStep_popped c h
  all_goals exact .ofTail rfl rfl rfl h.2

theorem State.runUntilCoop_popped (script : List Event) (s : State) (h : s.QueueOk) :
    Popped s (s.runUntilCoop script) := by
  induction script generalizing s with
  | nil => exact .ofTail rfl rfl rfl h.2
  | cons e rest ih =>
    cases e <;> simp only [State.runUntilCoop]
    case coop => exact .ofTail rfl rfl rfl h.2
    all_goals exact (s.outside_popped _ h).trans (ih _ ((s.outside_popped _ h).queueOk h))

/-- What falls inside a handler only takes segments from the front of the queue. -/
theorem State.yield_popped (s : State) (h : s.QueueOk) : Popped s s.yield :=
  s.runUntilCoop_popped _ h

theorem State.liveSegments_length (s : State) : s.liveSegments.length = s.queueCount := by
  simp [State.liveSegments]

/-- The queue is full exactly when it holds `Q_SLOTS - 1` segments (R41). -/
theorem State.queueFull_iff (s : State) (h : s.QueueOk) :
    s.queueFull = true ↔ s.liveSegments.length = s.params.qSlots - 1 := by
  rw [s.liveSegments_length]
  have hc := s.queueCount_cases h.1 h.2
  have h1 := h.1
  have h2 := h.2
  simp only [State.queueFull, State.nextSlot, beq_iff_eq]
  rcases Nat.lt_or_ge (s.coop.qHead + 1) s.params.qSlots with hlt | hge
  · rw [Nat.mod_eq_of_lt hlt]
    omega
  · rw [show s.coop.qHead + 1 = s.params.qSlots by omega, Nat.mod_self]
    omega

theorem State.liveSegments_length_le (s : State) (h : s.QueueOk) :
    s.liveSegments.length ≤ s.params.qSlots - 1 := by
  rw [s.liveSegments_length]
  have hc := s.queueCount_cases h.1 h.2
  have h1 := h.1
  have h2 := h.2
  omega

/-- Taking segments never fills the queue (R72). -/
theorem Popped.queueFull {s t : State} (h : Popped s t) (hs : s.QueueOk)
    (hf : s.queueFull = false) : t.queueFull = false := by
  obtain ⟨n, hn⟩ := h.live
  have hle := s.liveSegments_length_le hs
  have hne : ¬ s.liveSegments.length = s.params.qSlots - 1 := by
    rw [← s.queueFull_iff hs, hf]
    simp
  rw [← Bool.not_eq_true, t.queueFull_iff (h.queueOk hs), hn, h.params, List.length_drop]
  omega

end Sys2Proof.Machine
end

