-- ==== Sys2Proof/Tests/Slice0.lean ====
section
/-! SUPPORT. Small tests. Expected values come from the examples of spec/44_commands.md, from
spec/95_test_vectors.md, or from a hand calculation the comment names. After them, for every
statement that has hypotheses, a state and operands that meet them. -/

namespace Sys2Proof.Tests

-- One test at a time: each kernel evaluation waits for the declarations before it.
set_option Elab.async false

open Sys2Proof Sys2Proof.Machine

/-! ## The reference instance (44_commands.md, 95_test_vectors.md) -/

def refCfg : Config.ConfigRegs where
  outPin := 5
  sensePin := 14
  pwmFreq := 20000
  pwmRes := 12
  senseRate := 10000
  senseRes := 12

def refParams : Config.Params :=
  { Config.params with
    ringN := 4
    qSlots := 4
    fwVersion := 0x0107
    settingsTag := 0x5447
    defaultConfig := refCfg }

def noSeg : Segment := ⟨0, 0, 0, .step⟩

def refState : State where
  params := refParams
  cfg := refCfg
  periodUs := 100
  coop :=
    { streamingEnabled := false, automationEnabled := false, autoGen := 0, dutyCmd := 0, dutyGen := 0
      queue := [noSeg, noSeg, noSeg, noSeg], qHead := 0, wrapSeen := 0, pstate := .awaitLen, plen := 0
      lastSyncUs := 0, pos := .passStart }
  tick := TickRegs.reset refParams
  tickPending := none
  ext := { timeBase := 1000, inbound := [], outbound := [], store := [], trace := [] }
  sched := { script := [], turn := .coop, freeIdx := 0 }

/-- `s` with a received length byte and the rest of the frame waiting, COOP stepping next. -/
def receiving (frame : List Byte) (s : State) : State :=
  (s.placeCommand (frame.headD 0) frame.tail).coopNext

/-- One step. -/
def after (s : State) : State :=
  match step s with
  | .next t => t
  | _ => s

/-- The bytes one step sends when the frame is received in `s`. -/
def reply (frame : List Byte) (s : State) : List Byte := (after (receiving frame s)).ext.outbound

/-- What the device decodes from a frame. -/
def decoded (frame : List Byte) : Option Instr :=
  match decodeHostFrame refParams frame with
  | .ok (i, []) => some i
  | _ => none

/-- What the host decodes from a frame. -/
def decodedOut (frame : List Byte) : Option Instr :=
  match decodeDeviceFrame refParams frame with
  | .ok (i, []) => some i
  | _ => none

def ramp100 : Segment := ⟨100, 1000, 1000, .linear⟩

/-- An active Linear segment at its start, with automation on. -/
def running (a b : U16) (total : U32) (s : State) : State :=
  { s with
    coop.automationEnabled := true
    tick.autoActive := true
    tick.segStart := a
    tick.segEnd := b
    tick.segShape := .linear
    tick.segTotal := total }

/-- One queued segment. -/
def queued (g : Segment) (s : State) : State :=
  { s with coop.queue := [g, noSeg, noSeg, noSeg], coop.qHead := 1 }

/-- A full queue. -/
def fullQueue (s : State) : State :=
  { s with coop.queue := [ramp100, ramp100, ramp100, noSeg], coop.qHead := 3 }

/-! ## Integrity and decoding, from the words of spec/95_test_vectors.md and R9 -/

theorem test_checksum : checksum8 [0x52, 0x00, 0x64, 0x03, 0xE8, 0x01] = 0xA2 := by decide
theorem test_crc_one : crc8 refParams [0x01] = 0x07 := by decide +kernel
theorem test_crc_check : crc8 refParams [0x31, 0x32, 0x33, 0x34, 0x35, 0x36, 0x37, 0x38, 0x39] = 0xF4 := by
  decide +kernel
theorem test_decode_ping : decoded [0x01, 0x01, 0x01] = some .ping := by decide +kernel
theorem test_decode_getStatus : decoded [0x01, 0x02, 0x02] = some .getStatus := by decide +kernel
theorem test_decode_getDuty : decoded [0x01, 0x03, 0x03] = some .getDuty := by decide +kernel
theorem test_decode_setOutputPin : decoded [0x02, 0x10, 0x05, 0x15] = some (.setOutputPin 5) := by
  decide +kernel
theorem test_decode_setSensePin : decoded [0x02, 0x11, 0x0E, 0x1F] = some (.setSensePin 14) := by
  decide +kernel
theorem test_decode_setPwmFreq :
    decoded [0x05, 0x12, 0x00, 0x00, 0x4E, 0x20, 0x80] = some (.setPwmFreq 20000) := by decide +kernel
theorem test_decode_setDuty : decoded [0x03, 0x20, 0x08, 0x00, 0x28] = some (.setDuty 2048) := by
  decide +kernel
theorem test_decode_setDutyNoack : decoded [0x03, 0x21, 0x03, 0xE8, 0x0C] = some (.setDutyNoack 1000) := by
  decide +kernel
theorem test_decode_setDutyFast : decoded [0x03, 0x22, 0x0F, 0xFF, 0x30] = some (.setDutyFast 4095) := by
  decide +kernel
theorem test_decode_stopOutput : decoded [0x01, 0x23, 0x23] = some .stopOutput := by decide +kernel
theorem test_decode_startStream : decoded [0x01, 0x30, 0x30] = some .startStream := by decide +kernel
theorem test_decode_stopStream : decoded [0x01, 0x31, 0x31] = some .stopStream := by decide +kernel
theorem test_decode_startAutomation : decoded [0x01, 0x40, 0x40] = some .startAutomation := by
  decide +kernel
theorem test_decode_stopAutomation : decoded [0x01, 0x41, 0x41] = some .stopAutomation := by
  decide +kernel
theorem test_decode_queueTrajSeg :
    decoded [0x06, 0x52, 0x00, 0x64, 0x03, 0xE8, 0x01, 0xA2] = some (.queueTrajSeg 100 1000 0x01 none) ∧
    decoded [0x0A, 0x52, 0x00, 0x64, 0x03, 0xE8, 0x01, 0x00, 0x01, 0x86, 0xA0, 0xC9] =
      some (.queueTrajSeg 100 1000 0x01 (some 100000)) := by decide +kernel
theorem test_decode_saveSettings : decoded [0x01, 0x60, 0x60] = some .saveSettings := by decide +kernel
theorem test_decode_softReset : decoded [0x01, 0x70, 0x70] = some .softReset := by decide +kernel
theorem test_decode_saveAndReset : decoded [0x01, 0x71, 0x71] = some .saveAndReset := by decide +kernel
theorem test_decode_respAck : decodedOut [0x02, 0xA0, 0x01, 0xA1] = some (.respAck 0x01) := by
  decide +kernel
theorem test_decode_respError : decodedOut [0x03, 0xA1, 0x20, 0x02, 0xC3] = some (.respError 0x20 0x02) := by
  decide +kernel
theorem test_decode_respStatus :
    decodedOut [0x0F, 0xA2, 0x01, 0x07, 0x05, 0x0E, 0x00, 0x00, 0x4E, 0x20, 0x0C, 0x00, 0x00, 0x27,
      0x10, 0x0C, 0x7A] = some (.respStatus 0x0107 refCfg) := by decide +kernel
theorem test_decode_respDuty : decodedOut [0x03, 0xA3, 0x03, 0xE8, 0x8E] = some (.respDuty 1000) := by
  decide +kernel
theorem test_decode_telemSnapshot :
    decodedOut [0xAA, 0x00, 0xBE, 0x00, 0x64, 0x00, 0x18, 0x01, 0xC8, 0x00, 0x72, 0x01, 0x2C, 0x01,
      0xCC, 0x01, 0x90, 0x01, 0x4D] =
      some (.telemSnapshot [⟨190, 100⟩, ⟨280, 200⟩, ⟨370, 300⟩, ⟨460, 400⟩]) := by decide +kernel
theorem test_decode_telemTimesync :
    decodedOut [0xAA, 0x01, 0x00, 0x07, 0xA1, 0x20, 0x99] = some (.telemTimesync 500000) := by
  decide +kernel
theorem test_decode_refuses :
    decoded [0x01, 0x7F, 0x7F] = none ∧ decoded [0x02, 0x01, 0x00, 0x01] = none ∧
    decoded [0x01, 0x01, 0x02] = none ∧ decoded [0x00] = none ∧ decoded [0x3F] = none := by
  decide +kernel

/-! ## WellFormed: an ill-formed term for each check -/

theorem test_wf_snapshot_length : (Instr.telemSnapshot [⟨0, 0⟩]).fits refParams = false := by decide
theorem test_wf_ack_of_noack : (Instr.respAck 0x21).wf refParams = false := by decide
theorem test_wf_ack_unassigned : (Instr.respAck 0x7F).wf refParams = false := by decide
theorem test_wf_error_code : (Instr.respError 0x20 0x00).wf refParams = false := by decide
theorem test_wf_error_code_high : (Instr.respError 0x20 0x04).wf refParams = false := by decide
theorem test_wf_accepts :
    (Instr.respAck 0x71).wf refParams = true ∧ (Instr.respError 0x20 0x03).wf refParams = true := by
  decide
theorem test_params_valid : refParams.Valid := by decide +kernel
theorem test_params_ring : ¬ ({ refParams with ringN := 0 } : Config.Params).Valid := by decide +kernel
theorem test_params_slots :
    ¬ ({ refParams with qSlots := 1 } : Config.Params).Valid ∧
    ¬ ({ refParams with qSlots := 6 } : Config.Params).Valid := by decide +kernel
theorem test_params_frame :
    ¬ ({ refParams with maxFrame := 11 } : Config.Params).Valid ∧
    ¬ ({ refParams with maxFrame := 258 } : Config.Params).Valid := by decide +kernel
theorem test_params_magic :
    ¬ ({ refParams with telemMagic := 0x02 } : Config.Params).Valid ∧
    ¬ ({ refParams with telemMagic := 0x03 } : Config.Params).Valid ∧
    ¬ ({ refParams with telemMagic := 0x0F } : Config.Params).Valid := by decide +kernel
theorem test_params_types : ¬ ({ refParams with typeTimesync := 0x00 } : Config.Params).Valid := by
  decide +kernel
theorem test_params_default :
    ¬ ({ refParams with defaultConfig.pwmRes := 17 } : Config.Params).Valid := by decide +kernel
theorem test_config_freq :
    ¬ ({ refCfg with pwmFreq := 999 } : Config.ConfigRegs).Valid refParams ∧
    ¬ ({ refCfg with pwmFreq := 100001 } : Config.ConfigRegs).Valid refParams := by decide +kernel
theorem test_config_res :
    ¬ ({ refCfg with pwmRes := 0 } : Config.ConfigRegs).Valid refParams ∧
    ¬ ({ refCfg with senseRes := 17 } : Config.ConfigRegs).Valid refParams := by decide +kernel
theorem test_config_rate :
    ¬ ({ refCfg with senseRate := 0 } : Config.ConfigRegs).Valid refParams ∧
    ¬ ({ refCfg with senseRate := 1000001 } : Config.ConfigRegs).Valid refParams := by decide +kernel

/-! ## Commands, one step each (the examples of R175 to R193) -/

theorem test_ping : reply [0x01, 0x01, 0x01] refState = [0x02, 0xA0, 0x01, 0xA1] := by decide +kernel
theorem test_ping_arity : reply [0x02, 0x01, 0x00, 0x01] refState = [0x03, 0xA1, 0x01, 0x01, 0xA3] := by
  decide +kernel
theorem test_getStatus :
    reply [0x01, 0x02, 0x02] refState =
      [0x0F, 0xA2, 0x01, 0x07, 0x05, 0x0E, 0x00, 0x00, 0x4E, 0x20, 0x0C, 0x00, 0x00, 0x27, 0x10,
       0x0C, 0x7A] := by decide +kernel
theorem test_getDuty :
    reply [0x01, 0x03, 0x03] { refState with tick.dutyOut := 1000 } = [0x03, 0xA3, 0x03, 0xE8, 0x8E] := by
  decide +kernel
theorem test_setOutputPin :
    reply [0x02, 0x10, 0x05, 0x15] refState = [0x02, 0xA0, 0x10, 0xB0] ∧
    (after (receiving [0x02, 0x10, 0x09, 0x19] refState)).ext.trace = [.pwmConfigure 9 20000 12] := by
  decide +kernel
theorem test_setSensePin :
    reply [0x02, 0x11, 0x0E, 0x1F] refState = [0x02, 0xA0, 0x11, 0xB1] ∧
    (after (receiving [0x02, 0x11, 0x02, 0x13] refState)).cfg.sensePin = 2 := by decide +kernel
theorem test_setPwmFreq :
    reply [0x05, 0x12, 0x00, 0x00, 0x4E, 0x20, 0x80] refState = [0x02, 0xA0, 0x12, 0xB2] := by
  decide +kernel
theorem test_setPwmFreq_low :
    reply [0x05, 0x12, 0x00, 0x00, 0x03, 0xE7, 0xFC] refState = [0x03, 0xA1, 0x12, 0x01, 0xB4] := by
  decide +kernel
theorem test_setDuty :
    reply [0x03, 0x20, 0x08, 0x00, 0x28] refState = [0x02, 0xA0, 0x20, 0xC0] ∧
    ((after (receiving [0x03, 0x20, 0x08, 0x00, 0x28] refState)).tickStep 7).tick.dutyOut = 2048 := by
  decide +kernel
theorem test_setDuty_high :
    reply [0x03, 0x20, 0x10, 0x00, 0x30] refState = [0x03, 0xA1, 0x20, 0x02, 0xC3] := by decide +kernel
theorem test_setDutyNoack :
    reply [0x03, 0x21, 0x03, 0xE8, 0x0C] refState = [] ∧
    (after (receiving [0x03, 0x21, 0x03, 0xE8, 0x0C] refState)).coop.dutyCmd = 1000 := by decide +kernel
theorem test_setDutyFast :
    reply [0x03, 0x22, 0x0F, 0xFF, 0x30] refState = [] ∧
    (after (receiving [0x03, 0x22, 0x0F, 0xFF, 0x30] refState)).coop.dutyGen = 1 := by decide +kernel
theorem test_setDutyFast_high :
    reply [0x03, 0x22, 0x10, 0x00, 0x32] refState = [0x03, 0xA1, 0x22, 0x02, 0xC5] := by decide +kernel
theorem test_stopOutput :
    reply [0x01, 0x23, 0x23] refState = [0x02, 0xA0, 0x23, 0xC3] ∧
    ((after (receiving [0x01, 0x23, 0x23] { refState with tick.dutyOut := 9 })).tickStep 0).ext.trace =
      [.pwmWrite 5 0] := by decide +kernel
theorem test_startStream :
    reply [0x01, 0x30, 0x30] refState = [0x02, 0xA0, 0x30, 0xD0] ∧
    (after (receiving [0x01, 0x30, 0x30] { refState with tick.wrapCount := 3 })).coop.wrapSeen = 3 := by
  decide +kernel
theorem test_stopStream : reply [0x01, 0x31, 0x31] refState = [0x02, 0xA0, 0x31, 0xD1] := by
  decide +kernel
theorem test_startAutomation :
    reply [0x01, 0x40, 0x40] refState = [0x02, 0xA0, 0x40, 0xE0] ∧
    ((after (receiving [0x01, 0x40, 0x40] (queued ramp100 refState))).tickStep 0).tick.dutyOut = 190 := by
  decide +kernel
theorem test_stopAutomation : reply [0x01, 0x41, 0x41] refState = [0x02, 0xA0, 0x41, 0xE1] := by
  decide +kernel
theorem test_queueTrajSeg :
    reply [0x06, 0x52, 0x00, 0x64, 0x03, 0xE8, 0x01, 0xA2] refState = [0x02, 0xA0, 0x52, 0xF2] ∧
    (after (receiving [0x06, 0x52, 0x00, 0x64, 0x03, 0xE8, 0x01, 0xA2] refState)).liveSegments =
      [ramp100] := by decide +kernel
theorem test_queueTrajSeg_full :
    reply [0x06, 0x52, 0x00, 0x64, 0x03, 0xE8, 0x01, 0xA2] (fullQueue refState) =
      [0x02, 0xA0, 0x52, 0xF2] ∧
    (after (receiving [0x06, 0x52, 0x00, 0x64, 0x03, 0xE8, 0x01, 0xA2] (fullQueue refState))).coop.qHead =
      3 := by decide +kernel
theorem test_saveSettings :
    reply [0x01, 0x60, 0x60] refState = [0x02, 0xA0, 0x60, 0x00] ∧
    (after (receiving [0x01, 0x60, 0x60] refState)).ext.store =
      [0x54, 0x47, 0x05, 0x0E, 0x00, 0x00, 0x4E, 0x20, 0x0C, 0x00, 0x00, 0x27, 0x10, 0x0C] := by
  decide +kernel
theorem test_softReset :
    reply [0x01, 0x70, 0x70] refState = [0x02, 0xA0, 0x70, 0x10] ∧
    (after (receiving [0x01, 0x70, 0x70] { refState with cfg.outPin := 9 })).cfg.outPin = 5 := by
  decide +kernel
theorem test_saveAndReset :
    reply [0x01, 0x71, 0x71] refState = [0x02, 0xA0, 0x71, 0x11] ∧
    (after (receiving [0x01, 0x71, 0x71] { refState with cfg.outPin := 9 })).cfg.outPin = 9 := by
  decide +kernel
theorem test_unknown_opcode : reply [0x01, 0x7F, 0x7F] refState = [0x03, 0xA1, 0x7F, 0x03, 0x23] := by
  decide +kernel

/-! ## The tick, the engine and telemetry (examples of R122, R127, R140, R151, R154) -/

theorem test_tick_manual :
    let t := ({ refState with coop.dutyCmd := 2048, coop.dutyGen := 1 } : State).tickStep 0x1234
    t.ext.trace = [.pwmWrite 5 2048] ∧ t.tick.ring = [⟨2048, 0x0234⟩, ⟨0, 0⟩, ⟨0, 0⟩, ⟨0, 0⟩] := by
  decide +kernel
theorem test_tick_wrap :
    ((({ refState with tick.widx := 3 } : State).tickStep 0).tick.widx = 0) ∧
    ((({ refState with tick.widx := 3 } : State).tickStep 0).tick.wrapCount = 1) := by decide +kernel
theorem test_tick_starts_empty :
    let s := ({ refState with
      coop.automationEnabled := true, coop.autoGen := 1, tick.dutyOut := 700 } : State)
    (s.tickStep 0).tick.dutyOut = 700 ∧ (s.tickStep 0).tick.autoActive = false := by decide +kernel
theorem test_zero_step_then_ramp :
    (({ running 0 77 0 refState with
      coop.queue := [ramp100, noSeg, noSeg, noSeg], coop.qHead := 1 } : State).advances 2).1 =
      [190, 280] := by decide +kernel
theorem test_stored_config_invalid :
    loadConfig refParams
      [0x54, 0x47, 0x05, 0x0E, 0x00, 0x00, 0x4E, 0x20, 0x0C, 0x00, 0x00, 0x00, 0x00, 0x0C] =
      refCfg := by decide +kernel
theorem test_ramp_falls : ((running 10 0 3 refState).advances 3).1 = [7, 4, 0] := by decide +kernel
theorem test_enqueue_full : enqueue ramp100 (fullQueue refState) = fullQueue refState := by
  decide +kernel
theorem test_timesync :
    (after
      { refState with
        coop.pos := .send (.telemTimesync 500000), sched.script := [.coop] }).ext.outbound =
      [0xAA, 0x01, 0x00, 0x07, 0xA1, 0x20, 0x99] := by decide +kernel
theorem test_snapshot :
    (after
      { refState with
        coop.pos := .send (.telemSnapshot [⟨190, 100⟩, ⟨280, 200⟩, ⟨370, 300⟩, ⟨460, 400⟩])
        sched.script := [.coop] }).ext.outbound =
      [0xAA, 0x00, 0xBE, 0x00, 0x64, 0x00, 0x18, 0x01, 0xC8, 0x00, 0x72, 0x01, 0x2C, 0x01, 0xCC,
       0x01, 0x90, 0x01, 0x4D] := by decide +kernel

/-! ## Witnesses: a state and operands for the hypotheses of every statement, at the boundaries -/

theorem refState_inv : refState.Inv := by constructor <;> decide +kernel
theorem fullQueue_inv : (fullQueue refState).Inv := by constructor <;> decide +kernel
theorem queued_inv : (queued ramp100 refState).Inv := by constructor <;> decide +kernel

theorem witness_HostFramesRoundTrip :
    refParams.Valid ∧ (Instr.queueTrajSeg 0 0xFFFF 0xFF (some 0xFFFFFFFF)).direction = .hostToDevice := by
  decide +kernel
theorem witness_DeviceFramesRoundTrip :
    refParams.Valid ∧ (Instr.telemSnapshot refState.tick.ring).fits refParams = true ∧
    (Instr.telemSnapshot refState.tick.ring).direction = .deviceToHost := by decide +kernel
theorem witness_CommandEncodingIsUnique :
    decodeHostFrame refParams [0x01, 0x01, 0x01, 0xFF] = .ok (.ping, [0xFF]) := by rfl
theorem witness_UnassignedOpcodesRefused :
    (0x00 : Byte) ∉ allOpcodes.map opcodeByte ∧ (0xFF : Byte) ∉ allOpcodes.map opcodeByte := by
  decide +kernel
theorem witness_SingleBitFlipCaught : 1 < [(0x01 : Byte), 0x80].length ∧ 7 < 8 := by decide
theorem witness_ChecksumIgnoresOrder : [(0x01 : Byte), 0x02].Perm [0x02, 0x01] := by decide
theorem witness_CrcResidueIsZero : refParams.crcXorOut = 0x00 ∧ refParams.crcPoly = 0x07 := by decide
theorem witness_CrcCheckValue :
    refParams.crcPoly = 0x07 ∧ refParams.crcInit = 0x00 ∧ refParams.crcXorOut = 0x00 := by decide
theorem witness_FirstByteTellsTelemetry :
    refParams.Valid ∧ (Instr.respAck 0x01).direction = .deviceToHost := by decide +kernel

theorem witness_StepRunsReceivedCommand :
    let s := receiving [0x01, 0x01, 0x01] refState
    s.CoopDue [] ∧ s.coop.pos = .passStart ∧ s.coop.pstate = .awaitBody ∧
    s.coop.plen.toNat + 1 ≤ s.ext.inbound.length ∧
    decodeBody (s.ext.inbound.take s.coop.plen.toNat) (s.ext.inbound.getD s.coop.plen.toNat 0) =
      .ok .ping := ⟨rfl, rfl, rfl, by decide +kernel, rfl⟩
theorem witness_StepSendsWaitingFrame :
    let s := ({ refState with coop.pos := .send (.respAck 0x01), sched.script := [.coop] } : State)
    s.CoopDue [] ∧ s.coop.pos = .send (.respAck 0x01) := by decide +kernel
theorem witness_ChecksumMismatchReply :
    let s := receiving [0x01, 0x7F, 0x00] refState
    s.CoopDue [] ∧ s.coop.pos = .passStart ∧ s.coop.pstate = .awaitBody ∧
    s.coop.plen.toNat + 1 ≤ s.ext.inbound.length ∧ s.bodyChecksum ≠ checksum8 s.bodyBytes := by
  decide +kernel
theorem witness_UnknownOpcodeReply :
    let s := receiving [0x01, 0x7F, 0x7F] refState
    s.CoopDue [] ∧ s.coop.pos = .passStart ∧ s.coop.pstate = .awaitBody ∧
    s.coop.plen.toNat + 1 ≤ s.ext.inbound.length ∧ s.bodyChecksum = checksum8 s.bodyBytes ∧
    s.bodyBytes.headD 0 ∉ allOpcodes.map opcodeByte := by decide +kernel
theorem witness_WrongArityReply :
    let s := receiving [0x02, 0x01, 0x00, 0x01] refState
    s.CoopDue [] ∧ s.coop.pos = .passStart ∧ s.coop.pstate = .awaitBody ∧
    s.coop.plen.toNat + 1 ≤ s.ext.inbound.length ∧ s.bodyChecksum = checksum8 s.bodyBytes ∧
    s.bodyBytes.headD 0 = opcodeByte .ping ∧ s.bodyBytes.tail.length ∉ arities .ping := by
  decide +kernel

/-- A state that awaits a length byte. -/
def awaiting (bytes : List Byte) : State :=
  { refState with ext.inbound := bytes, sched.script := [.coop] }

theorem witness_LengthByteReceived :
    (awaiting [0x3E]).CoopDue [] ∧ (awaiting [0x3E]).coop.pos = .passStart ∧
    (awaiting [0x3E]).coop.pstate = .awaitLen ∧ (awaiting [0x3E]).ext.inbound = [0x3E] ∧
    (awaiting [0x3F]).ext.inbound = [0x3F] := by decide +kernel
theorem witness_PartialBodyHolds :
    let s := receiving [0x01, 0x01] refState
    s.coop.pos = .passStart ∧ s.coop.pstate = .awaitBody ∧
    s.ext.inbound.length < s.coop.plen.toNat + 1 ∧ s.CoopDue [] ∧
    ({ s with sched.script := [.tick 0] } : State).sched.script = [.tick 0] := by decide +kernel

/-- An event list with a tick between COOP steps: `n` of these in all. -/
def coopsAndTick (n : Nat) : List Event := .tick 7 :: List.replicate n .coop

/-- A partly received frame of length `l`: `stale` bytes, then the zeros of R257, are inbound. -/
def halfFrame (l : Byte) (stale : List Byte) : State :=
  { refState with
    coop.pstate := .awaitBody
    coop.plen := l
    ext.inbound := stale ++ List.replicate 63 0
    sched.script := coopsAndTick (63 - l.toNat) }

theorem witness_ZerosRecoverFraming_len :
    let s := ({ refState with ext.inbound := [0, 0], sched.script := .coop :: coopsAndTick 1 } : State)
    s.coop.pos = .passStart ∧ noInputs s.sched.script = true ∧ s.coop.pstate = .awaitLen ∧
    s.ext.inbound = List.replicate (s.sched.script.count .coop) 0 := by decide +kernel
theorem witness_ZerosRecoverFraming_body :
    (let s := halfFrame 1 []
     s.coop.pos = .passStart ∧ noInputs s.sched.script = true ∧ s.coop.pstate = .awaitBody ∧
     lengthValid s.params s.coop.plen = true ∧
     s.ext.inbound = List.replicate (s.params.maxFrame - 1) 0 ∧
     s.sched.script.count .coop = s.params.maxFrame - 1 - s.coop.plen.toNat) ∧
    (let s := halfFrame 62 []
     noInputs s.sched.script = true ∧ lengthValid s.params s.coop.plen = true ∧
     s.ext.inbound = List.replicate (s.params.maxFrame - 1) 0 ∧
     s.sched.script.count .coop = s.params.maxFrame - 1 - s.coop.plen.toNat) := by decide +kernel

/-- Stale bytes inside the body, and a frame of which only the checksum is missing. -/
theorem witness_ZerosCompleteStaleFrame :
    (let s := ({ halfFrame 3 [0x20] with sched.script := .coop :: coopsAndTick 1 } : State)
     s.CoopDue (coopsAndTick 1) ∧ noInputs (coopsAndTick 1) = true ∧ s.coop.pos = .passStart ∧
     s.coop.pstate = .awaitBody ∧ lengthValid s.params s.coop.plen = true ∧
     [(0x20 : Byte)].length ≤ s.coop.plen.toNat ∧
     s.ext.inbound = [0x20] ++ List.replicate (s.params.maxFrame - 1) 0) ∧
    (let s := ({ halfFrame 1 [0x00] with sched.script := [.coop] } : State)
     s.CoopDue [] ∧ noInputs [] = true ∧ lengthValid s.params s.coop.plen = true ∧
     [(0x00 : Byte)].length ≤ s.coop.plen.toNat ∧
     s.ext.inbound = [0x00] ++ List.replicate (s.params.maxFrame - 1) 0) := by decide +kernel

theorem witness_SingleWriter_tick :
    ∃ t, ({ refState with sched.script := [.tick 0] } : State).sched.script = [.tick 0] ∧
      step { refState with sched.script := [.tick 0] } = .next t ∧ Event.tick 0 ≠ .coop :=
  ⟨_, rfl, rfl, nofun⟩
theorem witness_SingleWriter_coop :
    ∃ t, (receiving [0x01, 0x01, 0x01] refState).sched.script = [.coop] ∧
      step (receiving [0x01, 0x01, 0x01] refState) = .next t ∧ (∀ c, Event.coop ≠ .tick c) ∧
      noTicks [] = true ∧ (receiving [0x01, 0x01, 0x01] refState).tickPending = none :=
  ⟨_, rfl, rfl, nofun, rfl, rfl⟩
theorem witness_InputsChangeExternalState :
    ({ refState with sched.script := [.host [0x01]] } : State).sched.script = [.host [0x01]] ∧
    ({ refState with sched.script := [.hostRead 9] } : State).sched.script = [.hostRead 9] ∧
    ({ refState with sched.script := [.time 0xFFFFFFFF] } : State).sched.script =
      [.time 0xFFFFFFFF] ∧
    ({ refState with sched.script := [.envStore []] } : State).sched.script = [.envStore []] := by
  decide +kernel
theorem witness_StepKeepsInvariant :
    (awaiting [0x01]).Inv ∧ ∃ t, step (awaiting [0x01]) = .next t :=
  ⟨by constructor <;> decide +kernel, _, rfl⟩

/-- Automation enabled, with a start request or without. -/
def automated (requested : Bool) (s : State) : State :=
  { s with
    coop.automationEnabled := true
    coop.autoGen := if requested then s.tick.autoSeen + 1 else s.tick.autoSeen }

theorem witness_TickChoosesDuty_manual :
    refState.coop.automationEnabled = false ∧
    ((automated false refState).startRequested = false ∧
      (automated false refState).tick.autoActive = false) ∧
    ((automated true refState).startRequested = true ∧
      (automated true refState).queueEmpty = true) := by decide +kernel
theorem witness_TickChoosesDuty_active :
    (let s := automated false (running 100 1000 10 refState)
     s.coop.automationEnabled = true ∧ s.startRequested = false ∧ s.tick.autoActive = true) ∧
    (let s := automated true (queued ramp100 refState)
     s.coop.automationEnabled = true ∧ s.startRequested = true ∧ s.queueEmpty = false) := by
  decide +kernel
theorem witness_SampleInRange :
    refCfg.Valid refParams ∧ (0x0FFF : U16).toNat ≤ 2 ^ refCfg.senseRes.toNat - 1 := by decide +kernel
theorem witness_TickDutyIsLegal : refState.Inv := refState_inv
theorem witness_QueueIsFifo_empty :
    refState.Inv ∧ refState.Quiet ∧ refState.liveSegments.length < refState.params.qSlots - 1 ∧
    refState.liveSegments = [] := ⟨refState_inv, rfl, by decide +kernel, by decide +kernel⟩
theorem witness_QueueIsFifo_full :
    (fullQueue refState).Inv ∧ (fullQueue refState).Quiet ∧
    (fullQueue refState).liveSegments.length = (fullQueue refState).params.qSlots - 1 ∧
    (fullQueue refState).liveSegments = ramp100 :: [ramp100, ramp100] :=
  ⟨fullQueue_inv, rfl, by decide +kernel, by decide +kernel⟩
/-- A full queue whose active segment is one step from its end, so that a tick takes one of the
queued ones: full where Enqueue starts, not full where it reads the tail. -/
def poppedInside : State :=
  { running 10 0 1 (fullQueue refState) with sched.script := [.tick 0, .coop] }

theorem witness_EnqueueUnderInterleaving_room :
    (queued ramp100 refState).Inv ∧ (queued ramp100 refState).queueFull = false ∧
    (queued ramp100 refState).yield.queueFull = false := ⟨queued_inv, by decide +kernel⟩
theorem witness_EnqueueUnderInterleaving_full :
    (fullQueue refState).Inv ∧ (fullQueue refState).yield.queueFull = true :=
  ⟨fullQueue_inv, by decide +kernel⟩
theorem witness_EnqueueUnderInterleaving_popped :
    poppedInside.Inv ∧ poppedInside.queueFull = true ∧ poppedInside.yield.queueFull = false :=
  ⟨by constructor <;> decide +kernel, by decide +kernel⟩
theorem witness_SegmentRun :
    let s := running 10 0 3 refState
    1 ≤ s.params.qSlots ∧ s.tick.autoActive = true ∧ s.SegmentOk ∧ s.tick.segStep = 0 ∧
    0 < s.tick.segTotal.toNat ∧ s.queueEmpty = true ∧
    ({ s with tick.segShape := .step } : State).SegmentOk := by decide +kernel
theorem witness_RampProperties :
    (∃ v : Nat → Int, ∀ k, v k =
      ((linearValue 10 (BitVec.ofInt 64
        ((k : Int) * (((0 : U16).toNat : Int) - (10 : U16).toNat))) 3).toNat : Int)) ∧
    1 ≤ (3 : U32).toNat := ⟨⟨_, fun _ => rfl⟩, by decide⟩

/-- An active one-step segment with `g` queued behind it. -/
def lastStep (g : Segment) : State := running 10 0 1 (queued g refState)

theorem witness_ChainingHasNoIdleTick :
    (lastStep ramp100).Inv ∧ (lastStep ramp100).tick.autoActive = true ∧
    (lastStep ramp100).tick.segStep + 1 = (lastStep ramp100).tick.segTotal ∧
    (lastStep ramp100).liveSegments = [ramp100] :=
  ⟨by constructor <;> decide +kernel, by decide +kernel⟩
theorem witness_EndOfQueueHolds :
    (running 10 0 1 refState).Inv ∧ (running 10 0 1 refState).coop.automationEnabled = true ∧
    (running 10 0 1 refState).startRequested = false ∧
    (running 10 0 1 refState).tick.autoActive = true ∧
    (running 10 0 1 refState).tick.segStep + 1 = (running 10 0 1 refState).tick.segTotal ∧
    (running 10 0 1 refState).liveSegments = [] ∧ (running 10 0 1 refState).dutyPending = false :=
  ⟨by constructor <;> decide +kernel, by decide +kernel⟩

/-- An active zero-step segment with `g` queued behind it. -/
def zeroStep (g : Segment) : State := running 10 0 0 (queued g refState)

/-- One microsecond short of a step at a period of 100. -/
def shortSeg : Segment := ⟨1, 2, 99, .linear⟩

theorem witness_ZeroStepSegmentsSkipped_all :
    (zeroStep shortSeg).Inv ∧ (zeroStep shortSeg).tick.autoActive = true ∧
    (zeroStep shortSeg).tick.segTotal = 0 ∧
    (∀ g ∈ (zeroStep shortSeg).liveSegments, g.duration / (zeroStep shortSeg).periodUs = 0) :=
  ⟨by constructor <;> decide +kernel, by decide +kernel⟩
theorem witness_ZeroStepSegmentsSkipped_next :
    (zeroStep ⟨1, 2, 200, .step⟩).Inv ∧
    (let s := zeroStep ⟨1, 2, 200, .step⟩
     s.tick.autoActive = true ∧ s.tick.segTotal = 0 ∧
     s.liveSegments = [] ++ ⟨1, 2, 200, .step⟩ :: [] ∧
     (2 : U32) = 200 / s.periodUs ∧ (2 : U32) ≠ 0 ∧ (2 : U32) ≠ 1) :=
  ⟨by constructor <;> decide +kernel, by decide +kernel⟩
theorem witness_ZeroStepSegmentsSkipped_last :
    (zeroStep ⟨1, 2, 199, .linear⟩).Inv ∧
    (let s := zeroStep ⟨1, 2, 199, .linear⟩
     s.liveSegments = [] ++ ⟨1, 2, 199, .linear⟩ :: [] ∧ (1 : U32) = 199 / s.periodUs) :=
  ⟨by constructor <;> decide +kernel, by decide +kernel⟩

/-- A zero-step segment, a one-step one and a third behind an active zero-step one. -/
def zeroStepChain : State :=
  { zeroStep shortSeg with
    coop.queue := [shortSeg, ⟨1, 2, 100, .linear⟩, ramp100, noSeg]
    coop.qHead := 3 }

theorem witness_ZeroStepSegmentsSkipped_chain :
    zeroStepChain.Inv ∧
    (zeroStepChain.tick.autoActive = true ∧ zeroStepChain.tick.segTotal = 0 ∧
      zeroStepChain.liveSegments = [shortSeg] ++ ⟨1, 2, 100, .linear⟩ :: ramp100 :: [] ∧
      (∀ x ∈ [shortSeg], x.duration / zeroStepChain.periodUs = 0) ∧
      (1 : U32) = 100 / zeroStepChain.periodUs) :=
  ⟨by constructor <;> decide +kernel, by decide +kernel⟩

theorem witness_Quiet : refState.Quiet := rfl
theorem witness_SettersExactly :
    refState.Quiet ∧ refState.params.pwmFreqMin ≤ (1000 : U32).toNat ∧
    (1000 : U32).toNat ≤ refState.params.pwmFreqMax ∧
    refState.params.pwmFreqMin ≤ (100000 : U32).toNat ∧
    (100000 : U32).toNat ≤ refState.params.pwmFreqMax := by decide +kernel
theorem witness_SettersUnderInterleaving :
    freqLegal refParams 1000 = true ∧ freqLegal refParams 100000 = true := by decide +kernel
theorem witness_ValueChecksRefuse :
    ((999 : U32).toNat < refState.params.pwmFreqMin ∧
      refState.params.pwmFreqMax < (100001 : U32).toNat) ∧
    2 ^ refState.cfg.pwmRes.toNat - 1 < (4096 : U16).toNat ∧
    1 < (0x02 : Byte).toNat ∧ (0x01 : Byte).toNat ≤ 1 := by decide +kernel
theorem witness_DutyCommandsExactly :
    refState.Quiet ∧ (4095 : U16).toNat ≤ 2 ^ refState.cfg.pwmRes.toNat - 1 := by decide +kernel
theorem witness_DutyCommandsUnderInterleaving : dutyLegal refState.cfg 4095 = true := by decide +kernel
theorem witness_SegmentAcceptedExactly :
    refState.Quiet ∧ (fullQueue refState).Quiet ∧
    ((0x00 : Byte) = 0x00 ∧ Shape.step = .step ∨ (0x00 : Byte) = 0x01 ∧ Shape.step = .linear) ∧
    ((0x01 : Byte) = 0x00 ∧ Shape.linear = .step ∨ (0x01 : Byte) = 0x01 ∧ Shape.linear = .linear) ∧
    (0 : U16).toNat ≤ 2 ^ refState.cfg.pwmRes.toNat - 1 ∧
    (4095 : U16).toNat ≤ 2 ^ refState.cfg.pwmRes.toNat - 1 ∧
    refState.queueFull = false ∧ (fullQueue refState).queueFull = true := by decide +kernel
theorem witness_StoringCommandsUnderInterleaving :
    (queued ramp100 refState).Inv ∧ poppedInside.Inv ∧ (fullQueue refState).Inv ∧
    ((0x00 : Byte) = 0x00 ∧ Shape.step = .step ∨ (0x00 : Byte) = 0x01 ∧ Shape.step = .linear) ∧
    ((0x01 : Byte) = 0x00 ∧ Shape.linear = .step ∨ (0x01 : Byte) = 0x01 ∧ Shape.linear = .linear) ∧
    (4095 : U16).toNat ≤ 2 ^ poppedInside.cfg.pwmRes.toNat - 1 ∧
    ∃ seg, seg = (⟨0, 4095, (none : Option U32).getD poppedInside.params.segDefaultDurationUs,
      .linear⟩ : Segment) :=
  ⟨queued_inv, by constructor <;> decide +kernel, fullQueue_inv, by decide, by decide,
    by decide +kernel, _, rfl⟩
theorem witness_SettingsCommandsExactly :
    refState.Quiet ∧ ∃ r, r = be16 refState.params.settingsTag ++
      [refState.cfg.outPin, refState.cfg.sensePin] ++ be32 refState.cfg.pwmFreq ++
      [refState.cfg.pwmRes] ++ be32 refState.cfg.senseRate ++ [refState.cfg.senseRes] :=
  ⟨rfl, _, rfl⟩
theorem witness_ResetCommandsReset :
    ((.softReset : Instr) = .softReset ∨ (.softReset : Instr) = .saveAndReset) ∧
    ((.saveAndReset : Instr) = .softReset ∨ (.saveAndReset : Instr) = .saveAndReset) ∧
    noInputs (coopsAndTick 2) = true := by decide
theorem witness_SaveAndResetKeepsConfiguration : refState.cfg.Valid refState.params ∧ refState.Quiet := by
  decide +kernel
theorem witness_LoadedConfigurationIsValid :
    refParams.Valid ∧ ({ refCfg with outPin := 9 } : Config.ConfigRegs).Valid refParams ∧
    ¬ ({ refCfg with senseRate := 0 } : Config.ConfigRegs).Valid refParams ∧
    ([] : List Byte).length ≠ 14 ∧
    (List.replicate 14 (0 : Byte)).take 2 ≠ be16 refParams.settingsTag := by decide +kernel
theorem witness_ReplyPolicy : Instr.softReset.direction = .hostToDevice ∧ refState.Quiet := by
  decide +kernel

/-- Streaming, with a wrap that no snapshot has shown, and `n` COOP steps to come. -/
def streamed (on : Bool) (wraps : U32) (n : Nat) : State :=
  { refState with
    coop.streamingEnabled := on
    tick.wrapCount := wraps
    sched.script := List.replicate n .coop }

theorem witness_SnapshotPass :
    (streamed true 1 6).coop.pos = .passStart ∧ (streamed true 1 6).coop.pstate = .awaitLen ∧
    (streamed true 1 6).ext.inbound = [] ∧ (streamed true 1 6).tickPending = none ∧
    (streamed true 1 6).coop.streamingEnabled = true ∧
    (streamed true 1 6).tick.wrapCount ≠ (streamed true 1 6).coop.wrapSeen ∧
    (streamed true 1 6).sched.script = List.replicate 6 .coop ++ [] ∧
    (streamed true 0 5).tick.wrapCount = (streamed true 0 5).coop.wrapSeen ∧
    (streamed true 0 5).sched.script = List.replicate 5 .coop ++ [] ∧
    (streamed false 1 2).coop.streamingEnabled = false ∧
    (streamed false 1 2).sched.script = List.replicate 2 .coop ++ [] := by decide +kernel
theorem witness_WindowMasksTick :
    let s := ({ streamed true 1 0 with
      coop.pos := .snapWindow, sched.script := [.tick 1, .tick 2, .coop] } : State)
    s.coop.pos = .snapWindow ∧ s.tickPending = none ∧ s.tick.wrapCount ≠ s.coop.wrapSeen ∧
    s.sched.script = [.tick 1, .tick 2, .coop] ++ [] ∧
    (streamed true 0 0).tick.wrapCount = (streamed true 0 0).coop.wrapSeen := by decide +kernel

/-- At `TimeSync` with the counter at `t` and `n` COOP steps to come. -/
def atSync (t : U32) (n : Nat) : State :=
  { refState with
    coop.pos := .syncAvail
    ext.timeBase := t
    sched.script := List.replicate n .coop }

theorem witness_TimeSyncPass :
    (atSync 500000 4).coop.pos = .syncAvail ∧ (atSync 500000 4).ext.inbound = [] ∧
    (atSync 500000 4).params.timesyncIntervalUs ≤
      ((atSync 500000 4).ext.timeBase.toNat +
        (2 ^ 32 - (atSync 500000 4).coop.lastSyncUs.toNat)) % 2 ^ 32 ∧
    (atSync 500000 4).sched.script = List.replicate 4 .coop ++ [] ∧
    ((atSync 499999 2).ext.timeBase.toNat +
        (2 ^ 32 - (atSync 499999 2).coop.lastSyncUs.toNat)) % 2 ^ 32 <
      (atSync 499999 2).params.timesyncIntervalUs ∧
    (atSync 499999 2).sched.script = List.replicate 2 .coop ++ [] := by decide +kernel
theorem witness_CommandPriority :
    (awaiting [0x01]).CoopDue [] ∧ (awaiting [0x01]).ext.inbound ≠ [] ∧
    ({ awaiting [0x01] with coop.pos := .snapAvail } : State).coop.pos = .snapAvail ∧
    ({ awaiting [0x01] with coop.pos := .syncAvail } : State).coop.pos = .syncAvail := by decide +kernel
theorem witness_PublicationOrder :
    let s := ({ refState with sched.script := [.tick 7, .coop, .coop] } : State)
    s.coop.automationEnabled = false ∧ s.dutyPending = false ∧ dutyLegal s.cfg 4095 = true ∧
    s.windowOpen = false ∧ s.sched.script = [.tick 7, .coop, .coop] := by decide +kernel
theorem witness_DutyCommandsFold :
    (refState.Quiet ∧ refState.coop.automationEnabled = false ∧ dutyLegal refState.cfg 1 = true ∧
      dutyLegal refState.cfg 4095 = true ∧ refState.coop.dutyGen = refState.tick.dutySeen) ∧
    ∃ t u, exec (.setDuty 1) refState = .next t ∧ exec (.setDuty 4095) t = .next u :=
  ⟨by decide +kernel, _, _, rfl, rfl⟩
theorem witness_StopOutputDrivesZero :
    (refState.Quiet ∧ refState.coop.dutyGen + 1 ≠ refState.tick.dutySeen) ∧
    ∃ t, exec .stopOutput refState = .next t := ⟨by decide +kernel, _, rfl⟩
theorem witness_StartRequestsFold :
    (queued ramp100 refState).Inv ∧
    ((queued ramp100 refState).Quiet ∧
      (queued ramp100 refState).coop.autoGen + 2 ≠ (queued ramp100 refState).tick.autoSeen ∧
      (queued ramp100 refState).liveSegments = ramp100 :: []) ∧
    ∃ t u, exec .startAutomation (queued ramp100 refState) = .next t ∧
      exec .startAutomation t = .next u := ⟨queued_inv, by decide +kernel, _, _, rfl, rfl⟩

end Sys2Proof.Tests
end

section
/-! What a command handler is made of (R20, R67): `exec_handled` says it once for every instruction,
so that what all the operations keep, every instruction keeps. -/

namespace Sys2Proof.Machine

/-! ## The operations of a handler -/

/-- One operation of a handler, with the check that the handler has made before it: a frame sent, a
peripheral called, a register of COOP's written, the block reset, or what falls between two COOP
steps. -/
inductive HandlerOp : State → State → Prop
  | between (s : State) : HandlerOp s s.yield
  | sendFrame (s : State) (i : Instr) : HandlerOp s (s.sendFrame i)
  | pwmConfigure (s : State) (pin : Byte) (f : U32) (r : Byte) :
      HandlerOp s (s.pwmConfigure pin f r)
  | nvStore (s : State) (bytes : List Byte) : HandlerOp s (s.nvStore bytes)
  | setOutPin (s : State) (v : Byte) : HandlerOp s (s.setOutPin v)
  | setSensePin (s : State) (v : Byte) : HandlerOp s (s.setSensePin v)
  | setPwmFreq (s : State) (f : U32) (legal : freqLegal s.params f = true) :
      HandlerOp s (s.setPwmFreq f)
  | setStreaming (s : State) (v : Bool) : HandlerOp s (s.setStreaming v)
  | setAutomation (s : State) (v : Bool) : HandlerOp s (s.setAutomation v)
  | setWrapSeen (s : State) (v : U32) : HandlerOp s (s.setWrapSeen v)
  | bumpAutoGen (s : State) : HandlerOp s s.bumpAutoGen
  | setDutyCmd (s : State) (d : U16) (legal : dutyLegal s.cfg d = true) :
      HandlerOp s (s.setDutyCmd d)
  | bumpDutyGen (s : State) : HandlerOp s s.bumpDutyGen
  | writeHead (s : State) (seg : Segment) : HandlerOp s (s.writeQueue s.coop.qHead seg)
  | publishHead (s : State) (legal : segmentLegal s.cfg (s.readQueue s.coop.qHead)) :
      HandlerOp s (s.setQHead (s.nextSlot s.coop.qHead))
  | deviceReset (s : State) : HandlerOp s s.deviceReset

/-- `t` is what some handler's operations make of `s`. -/
abbrev Handled : State → State → Prop := Relation.ReflTransGen HandlerOp

theorem Handled.start (s : State) : Handled s s := .refl

/-- One more operation. -/
theorem Handled.op {s t u : State} (h : Handled s t) (k : HandlerOp t u) : Handled s u := h.tail k

/-- What falls between two COOP steps may follow any operation. -/
theorem Handled.yield {s t : State} (h : Handled s t) : Handled s t.yield := h.op (.between t)

/-- An acknowledgment is the sending of its frame (R96). -/
theorem Handled.ack {s t : State} (h : Handled s t) (o : Opcode) : Handled s (t.ack o) :=
  h.op (.sendFrame t _)

/-- An error is the sending of its frame (R85, R215). -/
theorem raise_handled (s : State) (e : CommandError) (op : Byte) : Handled s (s.raise e op) :=
  (Handled.start s).op (.sendFrame s _)

theorem applyPwmFreq_handled (f : U32) (s : State) (legal : freqLegal s.params f = true) :
    Handled s (applyPwmFreq f s) :=
  ((Handled.start s).op (.setPwmFreq s f legal)).yield.op (.pwmConfigure _ _ _ _)
    |>.yield.ack _

/-- Publishing a duty writes the value, then its generation (R68). -/
theorem publishDuty_handled {s t : State} (h : Handled s t) (d : U16)
    (legal : dutyLegal t.cfg d = true) : Handled s (publishDuty d t) :=
  (h.op (.setDutyCmd t d legal)).yield.op (.bumpDutyGen _)

/-- A duty command either refuses its operand or does what it does for a legal one (R181, R212). -/
theorem checkedDuty_handled (o : Opcode) (d : U16) (accepted s : State)
    (h : dutyLegal s.cfg d = true → Handled s accepted) :
    Handled s (checkedDuty o d accepted s) := by
  unfold checkedDuty
  split
  · next legal => exact h legal
  · exact raise_handled s _ _

/-- The record in the slot just written: the one written, or, were the slot outside the array, the
zero record (R11). -/
theorem State.readQueue_writeQueue_self (s : State) (i : Nat) (seg : Segment) :
    (s.writeQueue i seg).readQueue i = seg ∨
      (s.writeQueue i seg).readQueue i = ⟨0, 0, 0, .step⟩ := by
  rcases Nat.lt_or_ge i s.coop.queue.length with h | h
  · left; simp [State.readQueue, List.getD_eq_getElem?_getD, h]
  · right; simp [State.readQueue, List.getD_eq_getElem?_getD, h]

/-- `Enqueue` writes the head's slot and then publishes it, or drops the segment (R122). -/
theorem enqueueAt_handled (s : State) (seg : Segment) (legal : segmentLegal s.cfg seg) :
    Handled s (enqueueAt s.coop.qHead seg s) := by
  unfold enqueueAt
  split
  · exact .start s
  · have written : Handled s (s.yield.writeQueue s.coop.qHead seg).yield := by
      have h := (Handled.start s).yield.op (.writeHead s.yield seg)
      rw [State.yield_coop] at h
      exact h.yield
    have slot :
        segmentLegal s.cfg ((s.yield.writeQueue s.coop.qHead seg).readQueue s.coop.qHead) := by
      rcases s.yield.readQueue_writeQueue_self s.coop.qHead seg with e | e
      · rw [e]; exact legal
      · rw [e]; exact ⟨Nat.zero_le _, Nat.zero_le _⟩
    have published := written.op (.publishHead _ (by simpa [State.readQueue] using slot))
    simpa [State.nextSlot] using published

theorem enqueue_handled (s : State) (seg : Segment) (legal : segmentLegal s.cfg seg) :
    Handled s (enqueue seg s) := by
  have h := enqueueAt_handled s.yield seg (by simpa using legal)
  rw [State.yield_coop] at h
  exact (Handled.start s).yield.trans h

theorem fallthroughSave_handled {s t : State} (h : Handled s t) :
    Handled s (fallthroughSave t) := by
  unfold fallthroughSave
  split
  · exact (h.op (.nvStore t _)).yield
  · exact h

/-- QUEUE_TRAJ_SEG checks the shape and the duties before it enqueues (R189, R222). -/
theorem execQueueTrajSeg_handled (a b : U16) (shape : Byte) (dur : Option U32) (s : State) :
    ∃ t, execQueueTrajSeg a b shape dur s = .next t ∧ Handled s t := by
  refine ⟨_, rfl, ?_⟩
  cases shapeOf shape with
  | none => exact raise_handled s _ _
  | some sh =>
    dsimp only
    split
    · next legal =>
      have duties : segmentLegal s.cfg ⟨a, b, segDuration s.params dur, sh⟩ := by
        simpa [dutyLegal] using legal
      exact (fallthroughSave_handled (enqueue_handled s _ duties).yield).ack _
    · exact raise_handled s _ _

/-- Every instruction gives a next state, by the operations of a handler. -/
theorem exec_handled (i : Instr) (s : State) : ∃ t, exec i s = .next t ∧ Handled s t := by
  have start := Handled.start s
  cases i with
  | ping => exact ⟨_, rfl, start.ack _⟩
  | getStatus => exact ⟨_, rfl, start.op (.sendFrame _ _)⟩
  | getDuty => exact ⟨_, rfl, start.yield.op (.sendFrame _ _)⟩
  | setOutputPin pin =>
    exact ⟨_, rfl, (start.op (.setOutPin s pin)).yield.op (.pwmConfigure _ _ _ _) |>.yield.ack _⟩
  | setSensePin pin => exact ⟨_, rfl, (start.op (.setSensePin s pin)).yield.ack _⟩
  | setPwmFreq f =>
    refine ⟨_, rfl, ?_⟩
    split
    · next legal => exact applyPwmFreq_handled f s legal
    · exact raise_handled s _ _
  | setDuty d =>
    exact ⟨_, rfl, checkedDuty_handled _ d _ s fun h => (publishDuty_handled start d h).yield.ack _⟩
  | setDutyNoack d => exact ⟨_, rfl, checkedDuty_handled _ d _ s (publishDuty_handled start d)⟩
  | setDutyFast d => exact ⟨_, rfl, checkedDuty_handled _ d _ s (publishDuty_handled start d)⟩
  | stopOutput =>
    exact ⟨_, rfl, (publishDuty_handled (start.op (.setAutomation s false)).yield 0
      (by simp [dutyLegal])).yield.ack _⟩
  | startStream =>
    exact ⟨_, rfl, (start.op (.setWrapSeen s _)).yield.op (.setStreaming _ true) |>.yield.ack _⟩
  | stopStream => exact ⟨_, rfl, (start.op (.setStreaming s false)).yield.ack _⟩
  | startAutomation =>
    exact ⟨_, rfl, (start.op (.setAutomation s true)).yield.op (.bumpAutoGen _) |>.yield.ack _⟩
  | stopAutomation => exact ⟨_, rfl, (start.op (.setAutomation s false)).yield.ack _⟩
  | queueTrajSeg a b shape dur => exact execQueueTrajSeg_handled a b shape dur s
  | saveSettings => exact ⟨_, rfl, (start.op (.nvStore s _)).yield.ack _⟩
  | softReset => exact ⟨_, rfl, (start.ack _).yield.op (.deviceReset _)⟩
  | saveAndReset =>
    exact ⟨_, rfl, ((start.op (.nvStore s _)).yield.ack _).yield.op (.deviceReset _)⟩
  | respAck _ | respError _ _ | respStatus _ _ | respDuty _ | telemSnapshot _ | telemTimesync _ =>
    exact ⟨_, rfl, start.op (.sendFrame _ _)⟩

end Sys2Proof.Machine
end

section
/-! The kinds of COOP step, for the proofs that ask only which registers a step writes (R156). -/

namespace Sys2Proof.Machine

/-! ## Steps that move COOP and write nothing else -/

/-- `t` is `s` with COOP at another place of the loop pass, with no frame waiting there. -/
def Moves (s t : State) : Prop := ∃ v, placeOk s.params v = true ∧ t = s.setPos v

theorem Moves.ite {s t u : State} {c : Prop} [Decidable c] (ht : Moves s t) (hu : Moves s u) :
    Moves s (if c then t else u) := by
  split
  · exact ht
  · exact hu

theorem State.snapFlagStep_moves (s : State) : Moves s s.snapFlagStep :=
  .ite ⟨_, rfl, rfl⟩ ⟨_, rfl, rfl⟩

theorem State.snapAvailStep_moves (s : State) : Moves s s.snapAvailStep :=
  .ite ⟨_, rfl, rfl⟩ ⟨_, rfl, rfl⟩

theorem State.syncAvailStep_moves (s : State) : Moves s s.syncAvailStep :=
  .ite ⟨_, rfl, rfl⟩ ⟨_, rfl, rfl⟩

theorem State.syncClockStep_moves (s : State) : Moves s s.syncClockStep :=
  .ite ⟨_, rfl, rfl⟩ ⟨_, rfl, rfl⟩

theorem placeOk_afterSend (p : Config.Params) (i : Instr) : placeOk p (afterSend i) = true := by
  cases i <;> rfl

/-! ## The kinds -/

/-- What COOP's next step is: it receives, moves on, notes a time-sync, ends the exclusion window, or
runs an instruction. -/
inductive CoopKind (s : State) : Prop
  | held (eq : s.coopStep = .next s)
  | length (eq : s.coopStep = .next s.receiveLength)
  | body (i : Instr) (eq : s.coopStep = exec i s.afterBody)
  | moves (t : State) (pos : s.coop.pos ≠ .snapWindow) (moves : Moves s t)
      (eq : s.coopStep = .next t)
  | mark (c : U32) (pos : s.coop.pos ≠ .snapWindow) (eq : s.coopStep = .next (s.syncMarkStep c))
  | window (eq : s.coopStep = .next s.snapCopyStep)
  | send (i : Instr) (pos : s.coop.pos ≠ .snapWindow)
      (eq : s.coopStep = exec i (s.setPos (afterSend i)))

theorem State.coopKind (s : State) : CoopKind s := by
  have place {v : CoopPos} (pos : s.coop.pos = v) (hv : v ≠ .snapWindow) :
      s.coop.pos ≠ .snapWindow := pos ▸ hv
  rcases s.coopStep_cases with ⟨-, -, eq⟩ | ⟨-, -, -, eq⟩ | ⟨pos, -, -, eq⟩ | ⟨pos, eq⟩ |
    ⟨pos, eq⟩ | ⟨pos, eq⟩ | ⟨-, eq⟩ | ⟨pos, eq⟩ | ⟨pos, eq⟩ | ⟨c, pos, eq⟩ | ⟨i, pos, eq⟩
  · rcases Nat.lt_or_ge s.ext.inbound.length (s.coop.plen.toNat + 1) with short | whole
    · exact .held (eq.trans (s.receiveBody_partial short))
    · exact .body _ (eq.trans (s.receiveBody_complete whole))
  · exact .length eq
  · exact .moves _ (place pos nofun) ⟨_, rfl, rfl⟩ eq
  · exact .moves _ (place pos nofun) s.snapFlagStep_moves eq
  · exact .moves _ (place pos nofun) s.snapAvailStep_moves eq
  · exact .moves _ (place pos nofun) ⟨_, rfl, rfl⟩ eq
  · exact .window eq
  · exact .moves _ (place pos nofun) s.syncAvailStep_moves eq
  · exact .moves _ (place pos nofun) s.syncClockStep_moves eq
  · exact .mark c (place pos nofun) eq
  · exact .send i (place pos nofun) eq

end Sys2Proof.Machine
end

section
/-! TICK's registers through a COOP step, and the single writers (R20, R29). -/

namespace Sys2Proof.Machine

/-! ## TICK's registers through a handler -/

/-- TICK's registers stay or are reset, and no tick comes into the script. -/
structure TickKept (s t : State) : Prop where
  params : t.params = s.params
  tick : t.tick = s.tick ∨ t.tick = TickRegs.reset s.params
  script : noTicks t.sched.script = true

theorem TickKept.trans {s t u : State} (h : TickKept s t) (k : TickKept t u) : TickKept s u := by
  refine ⟨k.params.trans h.params, ?_, k.script⟩
  rcases k.tick with e | e
  · rw [e]; exact h.tick
  · right; rw [e, h.params]

theorem HandlerOp.tickKept {s t : State} (op : HandlerOp s t)
    (h : noTicks s.sched.script = true) : TickKept s t := by
  cases op with
  | between =>
    obtain ⟨tick, script⟩ := s.yield_noTicks h
    exact ⟨s.yield_params, .inl tick, script⟩
  | deviceReset => exact ⟨rfl, .inr rfl, h⟩
  | _ => exact ⟨rfl, .inl rfl, h⟩

theorem Handled.tickKept {s t : State} (ops : Handled s t) (h : noTicks s.sched.script = true) :
    TickKept s t := by
  induction ops with
  | refl => exact ⟨rfl, .inl rfl, h⟩
  | tail _ op ih => exact ih.trans (op.tickKept ih.script)

/-- With no tick to come, no instruction writes TICK's registers, unless it resets the block. -/
theorem exec_tick {i : Instr} {s t : State} (e : exec i s = .next t)
    (h : noTicks s.sched.script = true) : t.tick = s.tick ∨ t.tick = TickRegs.reset s.params := by
  obtain ⟨u, eu, ops⟩ := exec_handled i s
  obtain rfl : u = t := by simpa [eu] using e
  exact (ops.tickKept h).tick

/-! ## TICK's registers through a COOP step -/

theorem State.receiveLength_tick (s : State) : s.receiveLength.tick = s.tick := by
  simp only [State.receiveLength]
  split <;> simp

/-- The end of the exclusion window writes TICK's registers only by a pending tick (R218). -/
theorem State.snapCopyStep_tick (s : State) (h : s.tickPending = none) :
    s.snapCopyStep.tick = s.tick := by
  unfold State.snapCopyStep
  split <;> simp [State.takePending, h]

/-- COOP's step with no tick pending and none to come leaves TICK's registers, unless it resets the
block (R20). -/
theorem State.coopStep_tick {s t : State} (e : s.coopStep = .next t) (hp : s.tickPending = none)
    (h : noTicks s.sched.script = true) : t.tick = s.tick ∨ t.tick = TickRegs.reset s.params := by
  have kept {u : State} (eq : s.coopStep = .next u) (hu : u.tick = s.tick) : t.tick = s.tick := by
    obtain rfl : u = t := by simpa [eq] using e
    exact hu
  cases s.coopKind with
  | held eq => exact .inl (kept eq rfl)
  | length eq => exact .inl (kept eq s.receiveLength_tick)
  | body i eq => exact exec_tick (s := s.afterBody) (eq ▸ e) h
  | moves u pos moves eq =>
    obtain ⟨v, -, rfl⟩ := moves
    exact .inl (kept eq rfl)
  | mark c pos eq => exact .inl (kept eq rfl)
  | window eq => exact .inl (kept eq (s.snapCopyStep_tick hp))
  | send i pos eq => exact exec_tick (s := s.setPos (afterSend i)) (eq ▸ e) h

/-- An input writes no register of TICK. -/
theorem State.outside_tick (s : State) (e : Event) (h : ∀ c, e ≠ .tick c) :
    (s.outside e).tick = s.tick := by
  cases e with
  | tick c => exact absurd rfl (h c)
  | _ => rfl

/-- Settles O21: an event that is not COOP's is the `outside` one, which keeps COOP's registers; a
COOP step is followed through its handler's operations. -/
theorem singleWriter : Obligations.SingleWriter := by
  intro s t e rest hs ht
  rw [step_scripted s e rest hs] at ht
  have outside (he : e ≠ .coop) : t = ({ s with sched.script := rest } : State).outside e := by
    simpa [State.runEvent_outside _ e he] using ht.symm
  refine ⟨fun he => ?_, fun noTick hrest pending => ?_⟩
  · have kept := State.outside_coopKept { s with sched.script := rest } e
    rw [← outside he] at kept
    exact ⟨kept.coop, kept.cfg, kept.periodUs⟩
  · by_cases he : e = .coop
    · subst he
      exact State.coopStep_tick (s := { s with sched.script := rest }) ht pending hrest
    · left
      rw [outside he]
      exact State.outside_tick _ e noTick

end Sys2Proof.Machine
end

section
/-! The settings record, and the configuration that reset loads (R51, R240, R247). -/

namespace Sys2Proof.Machine

/-- Writing a 16-bit field and reading its bytes agree (R91). -/
theorem be16_word16 (hi lo : Byte) : be16 (word16 hi lo) = [hi, lo] := by
  simp only [be16, word16, List.cons.injEq, and_true]
  exact ⟨BitVec.extractLsb'_append_eq_left, BitVec.extractLsb'_append_eq_right⟩

/-- The settings record reads back as its tag and configuration (R51). -/
@[simp] theorem decodeRecord_settingsRecord (p : Config.Params) (c : Config.ConfigRegs) :
    decodeRecord (settingsRecord p c) = some (p.settingsTag, c) := by
  simp [settingsRecord, configBytes, be16, be32, decodeRecord]

/-- What reads as a record is 14 bytes, the tag's first (R51). -/
theorem decodeRecord_some {store : List Byte} {tag : U16} {c : Config.ConfigRegs}
    (h : decodeRecord store = some (tag, c)) : store.length = 14 ∧ store.take 2 = be16 tag := by
  unfold decodeRecord at h
  split at h
  · obtain ⟨rfl, -⟩ : _ = tag ∧ _ = c := by simpa using h
    exact ⟨rfl, (be16_word16 _ _).symm⟩
  · cases h

/-- Reset loads the default configuration or a valid one read with the right tag (R240 step 2). -/
theorem loadConfig_cases (p : Config.Params) (store : List Byte) :
    loadConfig p store = p.defaultConfig ∨
    (decodeRecord store = some (p.settingsTag, loadConfig p store) ∧
      (loadConfig p store).Valid p) := by
  unfold loadConfig
  split
  · next tag c h =>
    split
    · next ok =>
      obtain ⟨rfl, valid⟩ := ok
      exact .inr ⟨h, valid⟩
    · exact .inl rfl
  · exact .inl rfl

theorem loadConfig_valid {p : Config.Params} (hp : p.Valid) (store : List Byte) :
    (loadConfig p store).Valid p := by
  obtain ⟨-, -, -, -, -, default⟩ := hp
  rcases loadConfig_cases p store with e | ⟨-, valid⟩
  · rw [e]; exact default
  · exact valid

theorem loadConfig_settingsRecord (p : Config.Params) (c : Config.ConfigRegs) :
    loadConfig p (settingsRecord p c) = if c.Valid p then c else p.defaultConfig := by
  simp [loadConfig]

theorem loadConfig_default {p : Config.Params} {store : List Byte}
    (h : store.length ≠ 14 ∨ store.take 2 ≠ be16 p.settingsTag) :
    loadConfig p store = p.defaultConfig := by
  rcases loadConfig_cases p store with e | ⟨read, -⟩
  · exact e
  · obtain ⟨length, tag⟩ := decodeRecord_some read
    rcases h with h | h
    · exact absurd length h
    · exact absurd tag h

/-- Settles O50, from the two cases of `loadConfig` and the round trip of the record. -/
theorem loadedConfigurationIsValid : Obligations.LoadedConfigurationIsValid := by
  intro p store hp
  refine ⟨loadConfig_valid hp store, ?_, ?_, loadConfig_default⟩
  · rintro c valid rfl
    rw [loadConfig_settingsRecord, if_pos valid]
  · rintro c invalid rfl
    rw [loadConfig_settingsRecord, if_neg invalid]

end Sys2Proof.Machine
end

section
/-! The invariant through reset, a handler, a COOP step and a step of the machine. -/

namespace Sys2Proof.Machine

/-! ## The invariant at reset -/

/-- Reset meets the invariant in whatever state it finds the block (R54, R240). -/
theorem State.deviceReset_inv (s : State) (hp : s.params.Valid) : s.deviceReset.Inv := by
  obtain ⟨ring, ⟨slots, -⟩, -⟩ := id hp
  have empty : s.deviceReset.liveSegments = [] := by
    simp [State.liveSegments, State.queueCount, CoopRegs.reset, TickRegs.reset]
  exact
    { params := hp
      cfg := loadConfig_valid hp s.ext.store
      period := rfl
      queueLength := by simp [CoopRegs.reset]
      ringLength := by simp [TickRegs.reset]
      head := Nat.zero_lt_of_lt slots
      tail := Nat.zero_lt_of_lt slots
      widx := ring
      dutyCmd := Nat.zero_le _
      dutyOut := Nat.zero_le _
      live := by simp [empty]
      active := nofun
      receiver := nofun
      place := rfl
      pending := nofun }

/-! ## The invariant through a handler -/

/-- A legal frequency keeps the configuration valid (R28, R180). -/
theorem State.setPwmFreq_inv {s : State} (h : s.Inv) (f : U32)
    (legal : freqLegal s.params f = true) : (s.setPwmFreq f).Inv := by
  obtain ⟨-, rest⟩ := h.cfg
  exact { h with cfg := ⟨by simpa [freqLegal] using legal, rest⟩ }

/-- Writing the head's slot keeps the invariant: no live segment changes (R72). -/
theorem State.writeHead_inv {s : State} (h : s.Inv) (seg : Segment) :
    (s.writeQueue s.coop.qHead seg).Inv :=
  { h with
    queueLength := by simpa using h.queueLength
    live := by rw [s.liveSegments_write seg h.head h.tail]; exact h.live }

/-- Publishing the head's slot keeps the invariant when the slot's record is legal (R122). -/
theorem State.publishHead_inv {s : State} (h : s.Inv)
    (legal : segmentLegal s.cfg (s.readQueue s.coop.qHead)) :
    (s.setQHead (s.nextSlot s.coop.qHead)).Inv := by
  have live : ∀ g ∈ (s.setQHead (s.nextSlot s.coop.qHead)).liveSegments, segmentLegal s.cfg g := by
    cases full : s.queueFull with
    | true => simp [s.liveSegments_publish_full full]
    | false =>
      rw [s.liveSegments_publish h.head h.tail full]
      intro g hg
      rcases List.mem_append.mp hg with old | new
      · exact h.live g old
      · rw [List.mem_singleton.mp new]; exact legal
  exact { h with head := Nat.mod_lt _ (Nat.zero_lt_of_lt h.head), live := live }

theorem HandlerOp.inv {s t : State} (op : HandlerOp s t) (h : s.Inv) : t.Inv := by
  cases op with
  | between => exact s.yield_inv h
  | setPwmFreq f legal => exact State.setPwmFreq_inv h f legal
  | setDutyCmd d legal => exact { h with dutyCmd := by simpa [dutyLegal] using legal }
  | writeHead seg => exact State.writeHead_inv h seg
  | publishHead legal => exact State.publishHead_inv h legal
  | deviceReset => exact s.deviceReset_inv h.params
  | _ => exact { h with }

theorem Handled.inv {s t : State} (ops : Handled s t) (h : s.Inv) : t.Inv := by
  induction ops with
  | refl => exact h
  | tail _ op ih => exact op.inv ih

/-- Every instruction keeps the invariant, whatever falls inside its handler. -/
theorem exec_inv {i : Instr} {s t : State} (e : exec i s = .next t) (h : s.Inv) : t.Inv := by
  obtain ⟨u, eu, ops⟩ := exec_handled i s
  obtain rfl : u = t := by simpa [eu] using e
  exact ops.inv h

/-! ## The invariant through a COOP step -/

/-- Outside the exclusion window no tick is pending (R218). -/
theorem State.Inv.not_pending {s : State} (h : s.Inv) (hpos : s.coop.pos ≠ .snapWindow) :
    s.tickPending = none := by
  cases hp : s.tickPending with
  | none => rfl
  | some c => exact absurd (by simpa [State.windowOpen] using h.pending (by simp [hp])) hpos

/-- Moving COOP to another place keeps the invariant when no tick waits for the window (R52, R218). -/
theorem State.Inv.setPos {s : State} (h : s.Inv) (hp : s.tickPending = none) (v : CoopPos)
    (ok : placeOk s.params v = true) : (s.setPos v).Inv :=
  { h with place := ok, pending := by simp [hp] }

theorem State.receiveLength_inv {s : State} (h : s.Inv) : s.receiveLength.Inv := by
  simp only [State.receiveLength]
  split
  · next valid => exact { h with receiver := fun _ => valid }
  · exact { h with }

theorem State.afterBody_inv {s : State} (h : s.Inv) : s.afterBody.Inv :=
  { h with receiver := nofun }

/-- At the end of the window the snapshot's frame fits, since the ring has `RING_N` samples (R43,
R86), and the pending tick is taken (R218). -/
theorem State.snapCopyStep_inv {s : State} (h : s.Inv) : s.snapCopyStep.Inv := by
  have dropped : ({ s with tickPending := none } : State).Inv := { h with pending := nofun }
  have fits : placeOk s.params (.send (.telemSnapshot s.tick.ring)) = true := by
    simp [placeOk, Instr.fits, h.ringLength, Instr.direction]
  unfold State.snapCopyStep
  split
  · exact State.takePending_inv _ { dropped with place := fits, pending := nofun }
  · exact State.takePending_inv _ { dropped with place := rfl, pending := nofun }

theorem State.syncMarkStep_inv {s : State} (h : s.Inv) (hp : s.tickPending = none) (t : U32) :
    (s.syncMarkStep t).Inv :=
  State.Inv.setPos (s := s.setLastSync t) { h with } hp _ rfl

/-- Every COOP step keeps the invariant. -/
theorem State.coopStep_inv {s t : State} (e : s.coopStep = .next t) (h : s.Inv) : t.Inv := by
  have kept {u : State} (eq : s.coopStep = .next u) (hu : u.Inv) : t.Inv := by
    obtain rfl : u = t := by simpa [eq] using e
    exact hu
  cases s.coopKind with
  | held eq => exact kept eq h
  | length eq => exact kept eq (State.receiveLength_inv h)
  | body i eq => exact exec_inv (eq ▸ e) (State.afterBody_inv h)
  | moves u pos moves eq =>
    obtain ⟨v, ok, rfl⟩ := moves
    exact kept eq (h.setPos (h.not_pending pos) v ok)
  | mark c pos eq => exact kept eq (State.syncMarkStep_inv h (h.not_pending pos) c)
  | window eq => exact kept eq (State.snapCopyStep_inv h)
  | send i pos eq =>
    exact exec_inv (eq ▸ e) (h.setPos (h.not_pending pos) _ (placeOk_afterSend _ i))

/-! ## The invariant through a step -/

theorem State.runEvent_inv {s t : State} {e : Event} (eq : s.runEvent e = .next t) (h : s.Inv) :
    t.Inv := by
  by_cases he : e = .coop
  · subst he
    exact State.coopStep_inv eq h
  · obtain rfl : s.outside e = t := by simpa [s.runEvent_outside e he] using eq
    exact s.outside_inv e h

/-- Settles O24: a step is an event run on a state that meets the invariant when `s` does. -/
theorem stepKeepsInvariant : Obligations.StepKeepsInvariant := by
  intro s t h ht
  obtain ⟨sched, time, e, eq⟩ := step_cases s
  rw [eq] at ht
  exact State.runEvent_inv ht { h with }

/-! ## The parameters at power-on -/

/-- The open constants make a valid default configuration, whatever they are (R8, R28). -/
theorem defaultConfig_valid : Config.defaultConfig.Valid Config.params := by
  have freq := Config.defaultPwmFreqOffset.isLt
  have res := Config.defaultPwmResOffset.isLt
  have rate := Config.defaultSenseRateOffset.isLt
  have sense := Config.defaultSenseResOffset.isLt
  simp only [Config.ConfigRegs.Valid, Config.defaultConfig, Config.params, Config.resMin,
    Config.resMax, Config.rateMin, Config.rateMax, BitVec.toNat_ofNat]
  omega

theorem params_valid : Config.params.Valid :=
  ⟨by decide, by decide, by decide, by decide, by decide, defaultConfig_valid⟩

/-- Power-on reset is a device reset of a block that has traced and drawn nothing (R240). -/
theorem State.reset_eq_deviceReset :
    State.reset =
      ({ State.reset with ext.trace := [], sched.freeIdx := 0 } : State).deviceReset := rfl

/-- Settles O25: power-on reset is a device reset, with valid parameters. -/
theorem resetMeetsInvariant : Obligations.ResetMeetsInvariant := by
  unfold Obligations.ResetMeetsInvariant
  rw [State.reset_eq_deviceReset]
  exact State.deviceReset_inv _ params_valid

end Sys2Proof.Machine
end

section
/-! What a reset command leaves, whatever falls before the reset (R191, R192, R240 to R245). -/

namespace Sys2Proof.Machine

/-! ## What HOST and ENV do meanwhile -/

/-- From `s` to `t`, HOST has read `n` of the outbound bytes and appended `more` to the inbound ones,
the store is kept or set by ENV, and a part of the script is left; with no input in the script
nothing of this happens (R50, R234). -/
structure Meanwhile (s t : State) (n : Nat) (more : List Byte) : Prop where
  params : t.params = s.params
  inbound : t.ext.inbound = s.ext.inbound ++ more
  outbound : t.ext.outbound = s.ext.outbound.drop n
  store : t.ext.store = s.ext.store ∨ .envStore t.ext.store ∈ s.sched.script
  script : t.sched.script <:+ s.sched.script
  noInputs : noInputs s.sched.script = true →
    n = 0 ∧ more = [] ∧ t.ext.timeBase = s.ext.timeBase ∧ noInputs t.sched.script = true

theorem State.yield_meanwhile (s : State) : ∃ n more, Meanwhile s s.yield n more := by
  by_cases h : noInputs s.sched.script = true
  · obtain ⟨ext, left⟩ := s.yield_noInputs h
    exact ⟨0, [],
      { params := s.yield_params
        inbound := by rw [ext, List.append_nil]
        outbound := by rw [ext, List.drop_zero]
        store := s.yield_store
        script := s.yield_suffix
        noInputs := fun _ => ⟨rfl, rfl, by rw [ext], left⟩ }⟩
  · obtain ⟨n, out⟩ := s.yield_outbound
    obtain ⟨more, inb⟩ := s.yield_inbound
    exact ⟨n, more,
      { params := s.yield_params
        inbound := inb
        outbound := out
        store := s.yield_store
        script := s.yield_suffix
        noInputs := fun h' => absurd h' h }⟩

/-- Bytes read before and after a reply are read from the whole (R50). -/
theorem drop_reply_drop {α : Type} (n m : Nat) (old reply : List α) :
    ((old.drop n ++ reply).drop m) = (old ++ reply).drop (min n old.length + m) := by
  have front : (old ++ reply).drop (min n old.length) = old.drop n ++ reply := by
    rw [List.drop_append_of_le_length (Nat.min_le_right _ _)]
    rcases Nat.le_total n old.length with h | h
    · rw [Nat.min_eq_left h]
    · rw [Nat.min_eq_right h, List.drop_length, List.drop_eq_nil_of_le h]
  rw [← List.drop_drop, front]

/-- Meanwhile, a reply, meanwhile: read from the old bytes and the reply. -/
theorem Meanwhile.reply {s t u : State} {n m : Nat} {more more' : List Byte} {i : Instr}
    (h : Meanwhile s t n more) (k : Meanwhile (t.sendFrame i) u m more') :
    Meanwhile (s.sendFrame i) u (min n s.ext.outbound.length + m) (more ++ more') where
  params := k.params.trans h.params
  inbound := by simp [k.inbound, h.inbound]
  outbound := by simp [k.outbound, h.outbound, h.params, drop_reply_drop]
  store := by
    rcases k.store with kept | set
    · rw [kept]; exact h.store
    · exact .inr (h.script.subset set)
  script := k.script.trans h.script
  noInputs quiet := by
    obtain ⟨rfl, rfl, time, left⟩ := h.noInputs quiet
    obtain ⟨rfl, rfl, time', left'⟩ := k.noInputs left
    exact ⟨by simp, rfl, time'.trans time, left'⟩

/-- The state a reset command resets: that of the command's start, with the record stored by
SAVE_AND_RESET, the ACK sent (R245) and whatever fell meanwhile. -/
theorem exec_reset (s : State) (i : Instr) (hi : i = .softReset ∨ i = .saveAndReset) :
    ∃ u n more, exec i s = .next u.deviceReset ∧
      Meanwhile
        ((if i = .softReset then s else saveSettings s).sendFrame
          (.respAck (if i = .softReset then 0x70 else 0x71))) u n more := by
  rcases hi with rfl | rfl
  · obtain ⟨n, more, h⟩ := (s.ack .softReset).yield_meanwhile
    exact ⟨_, n, more, rfl, h⟩
  · obtain ⟨n, more, h⟩ := (saveSettings s).yield_meanwhile
    obtain ⟨m, more', k⟩ := ((saveSettings s).yield.ack .saveAndReset).yield_meanwhile
    exact ⟨_, _, _, rfl, h.reply k⟩

/-- Settles O48: the state reset is known by `exec_reset`, and reset writes every register. -/
theorem resetCommandsReset : Obligations.ResetCommandsReset := by
  intro s i hi
  obtain ⟨u, n, more, eq, h⟩ := exec_reset s i hi
  have params : u.params = s.params := by rw [h.params]; split <;> rfl
  have inbound : u.ext.inbound = s.ext.inbound ++ more := by rw [h.inbound]; split <;> rfl
  have store : u.ext.store = (if i = .softReset then s.ext.store else settingsRecord s.params s.cfg)
      ∨ .envStore u.ext.store ∈ s.sched.script := by
    refine h.store.imp (fun e => ?_) fun e => ?_
    · rw [e]; split <;> rfl
    · split at e <;> exact e
  have outbound : u.ext.outbound = (s.ext.outbound ++
      encode s.params (.respAck (if i = .softReset then 0x70 else 0x71))).drop n := by
    rw [h.outbound]; split <;> rfl
  refine ⟨u.deviceReset, n, u.ext.trace, more, eq, params, by simp [params], ?_, rfl, ?_, ?_, rfl,
    rfl, outbound, inbound, store, fun quiet => ?_⟩
  · simp [periodOf]
  · simp [CoopRegs.reset, params]
  · simp [TickRegs.reset, params]
  · obtain ⟨hn, hmore, time, -⟩ := h.noInputs (by split <;> exact quiet)
    refine ⟨hn, hmore, ?_⟩
    rw [State.deviceReset_ext, time]
    split <;> rfl

end Sys2Proof.Machine
end

section
/-! Two start requests between two ticks; the inputs; the range of a sample. -/

namespace Sys2Proof.Machine

/-! ## START_AUTOMATION -/

/-- START_AUTOMATION with nothing falling inside it (R187). -/
theorem startAutomation_quiet {s t : State} (e : exec .startAutomation s = .next t)
    (h : s.Quiet) :
    t = (s.setAutomation true).bumpAutoGen.ack .startAutomation := by
  have run : exec .startAutomation s = execStartAutomation s := rfl
  simpa [run, execStartAutomation, h] using e.symm

/-- A start request with a segment queued starts the first one (R141). -/
theorem State.tickRequest_starts (s : State) (enabled : s.coop.automationEnabled = true)
    (requested : s.startRequested = true) (queued : s.queueEmpty = false) :
    s.tickRequest =
      ({ s with tick.autoSeen := s.coop.autoGen } : State).loadSegment
        (s.readQueue s.tick.qTail) := by
  have pop := State.start_pop ({ s with tick.autoSeen := s.coop.autoGen }) queued
  simp only [State.tickRequest, enabled, requested, if_true, pop]
  rfl

/-- Enabled with no request pending, the start-request check writes nothing (R141). -/
theorem State.tickRequest_idle (s : State) (enabled : s.coop.automationEnabled = true)
    (idle : s.startRequested = false) : s.tickRequest = s := by
  simp [State.tickRequest, enabled, idle]

/-- A queue with live segments is not empty (R41). -/
theorem State.queueEmpty_of_live {s : State} {g : Segment} {r : List Segment}
    (h : s.liveSegments = g :: r) : s.queueEmpty = false := by
  by_contra full
  have eq : s.coop.qHead = s.tick.qTail := by simpa [State.queueEmpty] using full
  simp [State.liveSegments, State.queueCount, eq] at h

/-- The live region is a matter of the slots, the head, the tail and their number (R41, R72). -/
theorem State.liveSegments_congr {s t : State} (params : t.params = s.params)
    (queue : t.coop.queue = s.coop.queue) (head : t.coop.qHead = s.coop.qHead)
    (tail : t.tick.qTail = s.tick.qTail) : t.liveSegments = s.liveSegments := by
  simp [State.liveSegments, State.queueCount, State.readQueue, params, queue, head, tail]

/-- A start request with segments queued starts the first one, once: a second check finds the
request taken (R34, R141). -/
theorem State.tickRequest_starts_once (s : State) {g : Segment} {r : List Segment} (ok : s.QueueOk)
    (enabled : s.coop.automationEnabled = true) (requested : s.startRequested = true)
    (live : s.liveSegments = g :: r) :
    s.tickRequest.liveSegments = r ∧ s.tickRequest.tick.segEnd = g.endDuty ∧
    s.tickRequest.tick.autoActive = true ∧ s.tickRequest.tickRequest = s.tickRequest := by
  have queued := State.queueEmpty_of_live live
  have pop := s.liveSegments_pop (s.readQueue s.tick.qTail) ok.1 ok.2 queued
  rw [live, List.cons.injEq] at pop
  obtain ⟨first, left⟩ := pop
  have started := s.tickRequest_starts enabled requested queued
  have idle : s.tickRequest.startRequested = false := by simp [started, State.startRequested]
  have stays : s.tickRequest.coop.automationEnabled = true := by simpa [started] using enabled
  refine ⟨?_, ?_, ?_, s.tickRequest.tickRequest_idle stays idle⟩
  · rw [started, left]; rfl
  · rw [started, first]; rfl
  · rw [started]; rfl

/-- Settles O60: the two commands move `auto_gen` on by two, which the check takes as one request,
and the rest of what it reads is as it was. -/
theorem startRequestsFold : Obligations.StartRequestsFold := by
  intro s t u g r h quiet fresh live et eu
  obtain rfl := startAutomation_quiet et quiet
  obtain rfl := startAutomation_quiet eu quiet
  refine State.tickRequest_starts_once _ ⟨h.head, h.tail⟩ rfl ?_
    ((State.liveSegments_congr rfl rfl rfl rfl).trans live)
  simpa [State.startRequested, BitVec.add_assoc] using fresh

/-! ## Inputs -/

/-- Settles O22: an input is its `outside` event on the rest of the list. -/
theorem inputsChangeExternalState : Obligations.InputsChangeExternalState := by
  intro s rest bytes n d
  refine ⟨fun h => ?_, fun h => ?_, fun h => ?_, fun h => ?_⟩ <;>
    exact (step_scripted s _ rest h).trans (State.runEvent_outside _ _ nofun)

/-! ## Samples -/

/-- Settles O28: a remainder modulo `2 ^ sense_res` fits 16 bits, as `sense_res` is at most 16. -/
theorem sampleInRange : Obligations.SampleInRange := by
  intro p cfg c valid
  obtain ⟨-, -, -, -, res⟩ := valid
  have pos : 0 < 2 ^ cfg.senseRes.toNat := Nat.two_pow_pos _
  have width : 2 ^ cfg.senseRes.toNat ≤ 2 ^ 16 := Nat.pow_le_pow_right (by decide) res
  refine ⟨?_, fun inside => ?_⟩
  · have below := Nat.mod_lt c.toNat pos
    rw [adcInRange, BitVec.toNat_ofNat, Nat.mod_eq_of_lt (below.trans_le width)]
    omega
  · rw [adcInRange, Nat.mod_eq_of_lt (by omega), BitVec.ofNat_toNat, BitVec.setWidth_eq]

end Sys2Proof.Machine
end

section
/-! Enqueue with ticks inside it (R72, R122, R123), and a tick between a duty and its generation
(R68, R142). -/

namespace Sys2Proof.Machine

/-! ## Enqueue, by what it finds where it reads the tail -/

/-- A queue full where Enqueue reads the tail drops the segment (R122). -/
theorem enqueue_full {s : State} (seg : Segment) (full : s.yield.queueFull = true) :
    enqueue seg s = s.yield := by
  have ahead : s.yield.nextSlot s.coop.qHead = s.yield.tick.qTail := by
    simpa [State.queueFull] using full
  rw [enqueue, enqueueAt, if_pos ahead]

/-- A queue with room where Enqueue reads the tail has the head's slot written and then published,
with whatever falls before each of the two (R122). -/
theorem enqueue_room {s : State} (seg : Segment) (room : s.yield.queueFull = false) :
    enqueue seg s =
      (s.yield.yield.writeQueue s.coop.qHead seg).yield.setQHead (s.nextSlot s.coop.qHead) := by
  have ahead : s.yield.nextSlot s.coop.qHead ≠ s.yield.tick.qTail := by
    simpa [State.queueFull] using room
  rw [enqueue, enqueueAt, if_neg ahead]
  simp [State.nextSlot]

/-- Events that leave a full queue full have taken none of its segments (R72). -/
theorem Popped.live_of_full {s t : State} (h : Popped s t) (ok : s.QueueOk)
    (full : t.queueFull = true) : t.liveSegments = s.liveSegments := by
  obtain ⟨n, taken⟩ := h.live
  have before : s.queueFull = true := by
    by_contra room
    simp [h.queueFull ok (by simpa using room)] at full
  have lenS := (s.queueFull_iff ok).mp before
  have lenT := (t.queueFull_iff (h.queueOk ok)).mp full
  rw [taken]
  exact (List.drop_suffix n _).eq_of_length (by rw [← taken, lenT, lenS, h.params])

/-- A segment written to the head's slot and published after further events stands last, behind
what the events left (R72, R122, R123). -/
theorem State.liveSegments_write_yield_publish {s : State} (seg : Segment) (ok : s.QueueOk)
    (slots : s.coop.queue.length = s.params.qSlots) (room : s.queueFull = false) :
    ∃ n, ((s.writeQueue s.coop.qHead seg).yield.setQHead (s.nextSlot s.coop.qHead)).liveSegments =
      s.liveSegments.drop n ++ [seg] := by
  have popped := (s.writeQueue s.coop.qHead seg).yield_popped ok
  obtain ⟨n, taken⟩ := popped.live
  obtain ⟨head, tail⟩ := popped.queueOk ok
  have publish := State.liveSegments_publish _ head tail (popped.queueFull ok room)
  have slot : (s.writeQueue s.coop.qHead seg).yield.readQueue s.coop.qHead = seg := by
    simp [State.readQueue, slots, ok.1]
  rw [s.liveSegments_write seg ok.1 ok.2] at taken
  refine ⟨n, ?_⟩
  simpa [State.nextSlot, taken, slot] using publish

/-- Settles O31: events only pop (`Popped`), so room stays room; a queue still full has lost nothing,
and otherwise the segment is published behind what is left. -/
theorem enqueueUnderInterleaving : Obligations.EnqueueUnderInterleaving := by
  intro s seg h
  have ok := h.queueOk
  have first := s.yield_popped ok
  refine ⟨first.queueFull ok, fun full => ?_, fun room => ?_⟩
  · rw [enqueue_full seg full]
    exact ⟨rfl, s.yield_coop, first.live_of_full ok full⟩
  · have second := s.yield.yield_popped (first.queueOk ok)
    have both := first.trans second
    obtain ⟨n, taken⟩ := both.live
    obtain ⟨m, appended⟩ := State.liveSegments_write_yield_publish seg (both.queueOk ok)
      (by simpa using h.queueLength) (second.queueFull (first.queueOk ok) room)
    rw [enqueue_room seg room]
    refine ⟨by simp [State.nextSlot], n + m, ?_⟩
    simpa [State.nextSlot, taken, List.drop_drop] using appended

/-! ## What a script puts at a boundary between two COOP steps (R67) -/

/-- COOP's step next: nothing falls at the boundary. -/
theorem State.yield_coop_due {s : State} {rest : List Event} (due : s.CoopDue rest) :
    s.yield = { s with sched.script := rest } := by
  rw [State.yield, due]
  rfl

/-- A tick, then COOP's step: the tick runs at the boundary, unless the exclusion window masks it
(R218). -/
theorem State.yield_tick_due {s : State} {c : U16} {rest : List Event}
    (script : s.sched.script = .tick c :: .coop :: rest) (unmasked : s.windowOpen = false) :
    s.yield = { s.tickStep c with sched.script := rest } := by
  rw [State.yield, script]
  simp [State.runUntilCoop, State.outside, State.tickDue, unmasked]

/-! ## A tick with automation disabled -/

/-- The duty decided by a tick is the one it outputs, and the ring's steps leave `duty_seen`
(R140). -/
theorem State.tickStep_duty (s : State) (c : U16) :
    (s.tickStep c).tick.dutyOut = s.tickRequest.tickDuty.1 ∧
    (s.tickStep c).tick.dutySeen = s.tickRequest.tickDuty.2.tick.dutySeen := ⟨rfl, rfl⟩

/-- With automation disabled, a tick outputs a pending duty or holds the last one, and has then seen
the generation (R142). -/
theorem State.tickStep_manual {s : State} (c : U16) (disabled : s.coop.automationEnabled = false) :
    (s.tickStep c).tick.dutyOut = (if s.dutyPending then s.coop.dutyCmd else s.tick.dutyOut) ∧
    (s.tickStep c).tick.dutySeen = s.coop.dutyGen := by
  have request : s.tickRequest =
      { s with tick.autoActive := false, tick.autoSeen := s.coop.autoGen } := by
    simp [State.tickRequest, disabled]
  obtain ⟨out, seen⟩ := s.tickStep_duty c
  rw [out, seen, request]
  by_cases same : s.coop.dutyGen = s.tick.dutySeen
  · simp [State.tickDuty, State.dutyPending, same]
  · simp [State.tickDuty, State.dutyPending, same]

/-! ## SET_DUTY with a tick inside it -/

/-- A legal SET_DUTY with a tick between its two writes: the tick finds the new value with the old
generation (R68, R181). -/
theorem setDuty_tick_between {s : State} {d c : U16} (legal : dutyLegal s.cfg d = true)
    (unmasked : s.windowOpen = false) (script : s.sched.script = [.tick c, .coop, .coop]) :
    ∃ t, exec (.setDuty d) s = .next t ∧
      t.coop = { s.coop with dutyCmd := d, dutyGen := s.coop.dutyGen + 1 } ∧
      t.tick = ((s.setDutyCmd d).tickStep c).tick := by
  have run : exec (.setDuty d) s = .next ((publishDuty d s).yield.ack .setDuty) := by
    show execSetDuty d s = _
    simp [execSetDuty, checkedDuty, legal]
  have published : publishDuty d s =
      ({ (s.setDutyCmd d).tickStep c with sched.script := [.coop] } : State).bumpDutyGen :=
    congrArg State.bumpDutyGen (State.yield_tick_due script unmasked)
  have after := State.yield_coop_due (s := publishDuty d s) (rest := []) (by rw [published]; rfl)
  refine ⟨_, run, ?_, ?_⟩
  · rw [State.ack_coop, after, published]
    simp
  · rw [State.ack_tick, after, published]
    rfl

/-- Settles O57: the tick inside sees no new generation and holds; afterwards the generation is one
ahead of what it has seen, so the next tick outputs the duty. -/
theorem publicationOrder : Obligations.PublicationOrder := by
  intro s d c disabled idle legal unmasked script
  obtain ⟨t, run, coop, tick⟩ := setDuty_tick_between legal unmasked script
  obtain ⟨held, seen⟩ := State.tickStep_manual (s := s.setDutyCmd d) c disabled
  have idle' : (s.setDutyCmd d).dutyPending = false := idle
  have pending : t.dutyPending = true := by
    simp [State.dutyPending, coop, tick, seen]
  refine ⟨t, run, ?_, by rw [coop], pending, fun c' => ?_⟩
  · rw [tick, held, idle']
    rfl
  · obtain ⟨out, -⟩ := State.tickStep_manual c' (s := t) (by rw [coop]; exact disabled)
    rw [out, pending, coop]
    rfl

end Sys2Proof.Machine
end

section
/-! What the tables of the wire say (R88, R92): opcodes, and the operands a payload carries. -/

namespace Sys2Proof

/-! ## Opcodes (R88, R98) -/

@[simp] theorem opcodeOf_opcodeByte (o : Opcode) : opcodeOf (opcodeByte o) = some o := by
  cases o <;> rfl

theorem opcodeByte_of_opcodeOf {b : Byte} {o : Opcode} (h : opcodeOf b = some o) :
    opcodeByte o = b := by
  simpa using List.find?_some h

theorem opcodeOf_eq_none {b : Byte} (h : b ∉ allOpcodes.map opcodeByte) : opcodeOf b = none := by
  simpa [opcodeOf, List.find?_eq_none] using h

/-! ## Operands (R91 to R93) -/

/-- Writing a 32-bit field and reading its bytes agree (R91). -/
theorem be32_word32 (b3 b2 b1 b0 : Byte) : be32 (word32 b3 b2 b1 b0) = [b3, b2, b1, b0] := by
  simp only [be32, word32, List.cons.injEq, and_true]
  refine ⟨?_, ?_, ?_, ?_⟩ <;> (ext i hi; simp; grind)

theorem length_le_nine_of_mem_arities {o : Opcode} {n : Nat} (h : n ∈ arities o) : n ≤ 9 := by
  cases o <;> simp only [arities, List.mem_cons, List.not_mem_nil, or_false] at h <;> omega

/-- A payload read as operands makes a command, has a length the opcode admits, and is the payload
that command is encoded with: the decoder's cases, said once. -/
theorem decodeOperands_some {o : Opcode} {payload : List Byte} {i : Instr}
    (h : decodeOperands o payload = some i) :
    i.direction = .hostToDevice ∧ payload.length ∈ arities o ∧
    ∀ p, instrBody p i = opcodeByte o :: payload := by
  cases o with
  | ping | getStatus | getDuty | stopOutput | startStream | stopStream | startAutomation
  | stopAutomation | saveSettings | softReset | saveAndReset =>
    rcases payload with _ | ⟨_, _⟩ <;> cases h
    exact ⟨rfl, by simp [arities], fun p => rfl⟩
  | setOutputPin | setSensePin =>
    rcases payload with _ | ⟨pin, _ | ⟨_, _⟩⟩ <;> cases h
    exact ⟨rfl, by simp [arities], fun p => rfl⟩
  | setDuty | setDutyNoack | setDutyFast =>
    rcases payload with _ | ⟨dh, _ | ⟨dl, _ | ⟨_, _⟩⟩⟩ <;> cases h
    exact ⟨rfl, by simp [arities], fun p => by simp [instrBody, Machine.be16_word16]⟩
  | setPwmFreq =>
    rcases payload with _ | ⟨f3, _ | ⟨f2, _ | ⟨f1, _ | ⟨f0, _ | ⟨_, _⟩⟩⟩⟩⟩ <;> cases h
    exact ⟨rfl, by simp [arities], fun p => by simp [instrBody, be32_word32]⟩
  | queueTrajSeg =>
    rcases payload with _ | ⟨sh, _ | ⟨sl, _ | ⟨eh, _ | ⟨el, _ | ⟨shape, _ | ⟨d3, _ | ⟨d2, _ | ⟨d1, _ |
      ⟨d0, _ | ⟨_, _⟩⟩⟩⟩⟩⟩⟩⟩⟩⟩ <;> cases h
    · exact ⟨rfl, by simp [arities], fun p => by simp [instrBody, Machine.be16_word16]⟩
    · exact ⟨rfl, by simp [arities],
        fun p => by simp [instrBody, Machine.be16_word16, be32_word32]⟩

/-- The body of every command is an opcode and a payload that reads back as the command's
operands. -/
theorem instrBody_decodes {i : Instr} (h : i.direction = .hostToDevice) (p : Config.Params) :
    ∃ o payload, instrBody p i = opcodeByte o :: payload ∧ decodeOperands o payload = some i := by
  cases i with
  | respAck | respError | respStatus | respDuty | telemSnapshot | telemTimesync => cases h
  | setPwmFreq f =>
    exact ⟨_, _, rfl, congrArg some (show Instr.setPwmFreq (word32 _ _ _ _) = _ by simp)⟩
  | setDuty d => exact ⟨_, _, rfl, congrArg some (show Instr.setDuty (word16 _ _) = _ by simp)⟩
  | setDutyNoack d =>
    exact ⟨_, _, rfl, congrArg some (show Instr.setDutyNoack (word16 _ _) = _ by simp)⟩
  | setDutyFast d =>
    exact ⟨_, _, rfl, congrArg some (show Instr.setDutyFast (word16 _ _) = _ by simp)⟩
  | queueTrajSeg a b shape duration =>
    cases duration with
    | none =>
      exact ⟨_, _, rfl, congrArg some
        (show Instr.queueTrajSeg (word16 _ _) (word16 _ _) _ none = _ by simp)⟩
    | some d =>
      exact ⟨_, _, rfl, congrArg some
        (show Instr.queueTrajSeg (word16 _ _) (word16 _ _) _ (some (word32 _ _ _ _)) = _ by simp)⟩
  | _ => exact ⟨_, _, rfl, rfl⟩

theorem decodeCommand_eq_ok {op : Byte} {payload : List Byte} {i : Instr} :
    decodeCommand op payload = .ok i ↔
      ∃ o, opcodeByte o = op ∧ decodeOperands o payload = some i := by
  constructor
  · intro h
    unfold decodeCommand at h
    split at h
    · cases h
    · next o known =>
      split at h
      · cases h
      · next j operands =>
        cases h
        exact ⟨o, opcodeByte_of_opcodeOf known, operands⟩
  · rintro ⟨o, rfl, operands⟩
    simp [decodeCommand, operands]

theorem decodeCommand_badArity {o : Opcode} {payload : List Byte}
    (h : payload.length ∉ arities o) :
    decodeCommand (opcodeByte o) payload = .error (.badArity (opcodeByte o)) := by
  have none : decodeOperands o payload = none := by
    cases e : decodeOperands o payload with
    | none => rfl
    | some i =>
      obtain ⟨-, admitted, -⟩ := decodeOperands_some e
      exact absurd admitted h
  simp [decodeCommand, none]

/-! ## Bodies (R173) -/

theorem decodeBody_checksum (body : List Byte) :
    decodeBody body (checksum8 body) = decodeCommand (body.headD 0) body.tail := by
  simp [decodeBody]

/-- Settles O5: the count by evaluation over the byte values, the refusal from the opcode table. -/
theorem unassignedOpcodesRefused : Obligations.UnassignedOpcodesRefused := by
  refine ⟨by decide +kernel, fun op payload unassigned => ?_⟩
  rw [decodeBody_checksum]
  simp [decodeCommand, opcodeOf_eq_none unassigned]

end Sys2Proof
end

section
/-! Command frames, and both directions of their encoding (R81 to R83). -/

namespace Sys2Proof

/-! ## A body, its check byte, and the bytes after them -/

/-- The bytes behind a length byte are cut where the body ends. -/
theorem framed_parts (body rest : List Byte) (check : Byte) :
    body.length + 1 ≤ (body ++ check :: rest).length ∧
    (body ++ check :: rest).take body.length = body ∧
    (body ++ check :: rest).getD body.length 0 = check ∧
    (body ++ check :: rest).drop (body.length + 1) = rest := by
  simp [List.drop_append]

/-- Bytes that reach past a body are the body, its check byte and the rest. -/
theorem framed_of_length {bytes : List Byte} {n : Nat} (h : n + 1 ≤ bytes.length) :
    bytes = bytes.take n ++ bytes.getD n 0 :: bytes.drop (n + 1) := by
  rw [List.getD_eq_getElem _ _ h, List.getElem_cons_drop, List.take_append_drop]

theorem shortFrame_append (body rest : List Byte) :
    shortFrame body ++ rest =
      BitVec.ofNat 8 body.length :: (body ++ checksum8 body :: rest) := by
  simp [shortFrame]

theorem toNat_ofNat_length {body : List Byte} (h : body.length < 256) :
    (BitVec.ofNat 8 body.length).toNat = body.length := by
  simpa using h

/-! ## Command frames -/

theorem decodeBody_eq_ok {body : List Byte} {check : Byte} {i : Instr} :
    decodeBody body check = .ok i ↔
      check = checksum8 body ∧ decodeCommand (body.headD 0) body.tail = .ok i := by
  by_cases h : check = checksum8 body
  · simp [h, decodeBody_checksum]
  · simp [decodeBody, h]

/-- What decodes as a command frame is a short frame around a body of admitted length that decodes
as that command, and nothing else does (R81, R82, R173). -/
theorem decodeHostFrame_eq_ok {p : Config.Params} {bytes rest : List Byte} {i : Instr} :
    decodeHostFrame p bytes = .ok (i, rest) ↔
      ∃ body, lengthValid p (BitVec.ofNat 8 body.length) = true ∧ body.length < 256 ∧
        decodeCommand (body.headD 0) body.tail = .ok i ∧ bytes = shortFrame body ++ rest := by
  constructor
  · intro h
    rcases bytes with _ | ⟨l, tail⟩
    · cases h
    rw [decodeHostFrame] at h
    split at h
    case isFalse => cases h
    next valid =>
    split at h
    · cases h
    next long =>
    split at h
    case h_2 => cases h
    next decoded =>
    cases h
    obtain ⟨check, command⟩ := decodeBody_eq_ok.mp decoded
    have len : (tail.take l.toNat).length = l.toNat := by rw [List.length_take]; omega
    refine ⟨tail.take l.toNat, ?_, ?_, command, ?_⟩
    · simpa [len] using valid
    · rw [len]; exact l.isLt
    · rw [shortFrame_append, len, ← check, ← framed_of_length (by omega)]
      simp
  · rintro ⟨body, valid, small, command, rfl⟩
    obtain ⟨long, take, check, drop⟩ := framed_parts body rest (checksum8 body)
    rw [shortFrame_append, decodeHostFrame, if_pos valid, toNat_ofNat_length small,
      if_neg (by omega), take, check, drop, decodeBody_eq_ok.mpr ⟨rfl, command⟩]

theorem encode_command {i : Instr} (h : i.direction = .hostToDevice) (p : Config.Params) :
    encode p i = shortFrame (instrBody p i) := by
  unfold encode
  split
  · cases h
  · cases h
  · rfl

/-- Settles O1: a command's body is an opcode and at most nine payload bytes, which every admitted
`MAX_FRAME` lets through, and the body decodes to the command. -/
theorem hostFramesRoundTrip : Obligations.HostFramesRoundTrip := by
  intro p i rest valid command
  obtain ⟨-, -, ⟨maxFrame, -⟩, -⟩ := valid
  obtain ⟨o, payload, body, operands⟩ := instrBody_decodes command p
  obtain ⟨-, admitted, -⟩ := decodeOperands_some operands
  have short := length_le_nine_of_mem_arities admitted
  have small : (opcodeByte o :: payload).length < 256 := by rw [List.length_cons]; omega
  rw [encode_command command, body]
  refine decodeHostFrame_eq_ok.mpr
    ⟨_, ?_, small, decodeCommand_eq_ok.mpr ⟨o, rfl, operands⟩, rfl⟩
  rw [lengthValid, toNat_ofNat_length small, decide_eq_true_eq, List.length_cons]
  omega

/-- Settles O3: bytes that decode are a short frame, and its body is the one its command is encoded
with. -/
theorem commandEncodingIsUnique : Obligations.CommandEncodingIsUnique := by
  intro p bytes i rest h
  obtain ⟨body, valid, small, decoded, rfl⟩ := decodeHostFrame_eq_ok.mp h
  obtain ⟨o, opcode, operands⟩ := decodeCommand_eq_ok.mp decoded
  obtain ⟨command, -, encoded⟩ := decodeOperands_some operands
  rw [encode_command command, encoded p, opcode]
  cases body with
  | nil => simp [lengthValid] at valid
  | cons op payload => rfl

/-- Settles O4: each frame is the encoding of its command (R102), so the round trip decodes it. -/
theorem specFramesDecode : Obligations.SpecFramesDecode := by
  have roundTrip (i : Instr) := hostFramesRoundTrip Config.params i [] Machine.params_valid
  exact ⟨roundTrip .ping rfl, roundTrip (.setOutputPin 5) rfl, roundTrip (.setPwmFreq 20000) rfl,
    roundTrip (.setDuty 2048) rfl, roundTrip (.queueTrajSeg 100 1000 0x01 none) rfl,
    roundTrip .saveAndReset rfl⟩

end Sys2Proof
end

section
/-! The device's frames: responses and telemetry, read back as a host reads them (R84 to R87, R95 to
R97, R100, R101). -/

namespace Sys2Proof

/-! ## Responses -/

/-- The length bytes of the four responses are 2, 3, 15 and 3, so none of them is the telemetry
magic (R101). -/
theorem response_firstByte_ne_magic {p : Config.Params} {i : Instr} (valid : p.Valid)
    (h : Machine.isResponse i = true) : BitVec.ofNat 8 (instrBody p i).length ≠ p.telemMagic := by
  obtain ⟨-, -, -, ⟨not02, not03, not0F⟩, -⟩ := valid
  cases i with
  | respAck op => exact not02.symm
  | respError op code => exact not03.symm
  | respStatus fw cfg => exact not0F.symm
  | respDuty d => exact not03.symm
  | _ => cases h

/-- A response is a short frame, and its body decodes to it (R84, R85, R95 to R97). -/
theorem response_decodes {i : Instr} (h : Machine.isResponse i = true) (p : Config.Params) :
    encode p i = shortFrame (instrBody p i) ∧
    decodeResponse ((instrBody p i).headD 0) (instrBody p i).tail = .ok i ∧
    1 ≤ (instrBody p i).length ∧ (instrBody p i).length ≤ 15 := by
  cases i with
  | respAck op => exact ⟨rfl, rfl, by simp [instrBody]⟩
  | respError op code => exact ⟨rfl, rfl, by simp [instrBody]⟩
  | respStatus fw cfg =>
    refine ⟨rfl, ?_, by simp [instrBody, configBytes]⟩
    exact congrArg Except.ok (show Instr.respStatus (word16 _ _)
      ⟨_, _, word32 _ _ _ _, _, word32 _ _ _ _, _⟩ = _ by simp)
  | respDuty d =>
    refine ⟨rfl, ?_, by simp [instrBody]⟩
    exact congrArg Except.ok (show Instr.respDuty (word16 _ _) = _ by simp)
  | _ => cases h

/-- A host reads a short frame whose length byte is not the magic as the response its body is. -/
theorem decodeDeviceFrame_shortFrame {p : Config.Params} {body : List Byte} {i : Instr}
    (rest : List Byte) (magic : BitVec.ofNat 8 body.length ≠ p.telemMagic)
    (nonempty : 1 ≤ body.length) (small : body.length < 256)
    (h : decodeResponse (body.headD 0) body.tail = .ok i) :
    decodeDeviceFrame p (shortFrame body ++ rest) = .ok (i, rest) := by
  obtain ⟨long, take, check, drop⟩ := framed_parts body rest (checksum8 body)
  have len := toNat_ofNat_length small
  have nonzero : BitVec.ofNat 8 body.length ≠ 0 := fun e => by
    rw [e] at len; simp at len; omega
  have enough : ¬ ((body ++ checksum8 body :: rest).length < body.length + 1 ∨
      BitVec.ofNat 8 body.length = 0) := by
    rintro (short | zero)
    · omega
    · exact nonzero zero
  rw [shortFrame_append]
  simp only [decodeDeviceFrame.eq_def, if_neg magic, len, if_neg enough, take, check, drop, ne_eq,
    not_true_eq_false, if_false, h]

/-! ## Telemetry -/

/-- A snapshot's data reads back as its samples (R86). -/
theorem decodeSamples_samplesBytes (samples : List Sample) :
    decodeSamples samples.length (samplesBytes samples) = some samples := by
  induction samples with
  | nil => rfl
  | cons x rest ih =>
    have first : samplesBytes (x :: rest) =
        x.duty.extractLsb' 0 8 :: x.duty.extractLsb' 8 8 ::
          x.current.extractLsb' 0 8 :: x.current.extractLsb' 8 8 :: samplesBytes rest := by
      simp [samplesBytes, le16]
    rw [first, List.length_cons, decodeSamples, ih]
    simp

/-- A host reads a telemetry frame whose data has its type's length as what that data is (R100,
R115). -/
theorem decodeDeviceFrame_telemetryFrame {p : Config.Params} {ty : Byte} {data : List Byte}
    {i : Instr} (rest : List Byte) (len : telemetryDataLength p ty = some data.length)
    (h : decodeTelemetry p ty data = .ok i) :
    decodeDeviceFrame p (telemetryFrame p (ty :: data) ++ rest) = .ok (i, rest) := by
  obtain ⟨long, take, check, drop⟩ := framed_parts data rest (crc8 p (ty :: data))
  have bytes : telemetryFrame p (ty :: data) ++ rest =
      p.telemMagic :: ty :: (data ++ crc8 p (ty :: data) :: rest) := by simp [telemetryFrame]
  rw [bytes, decodeDeviceFrame, if_pos rfl]
  simp only [len, if_neg (Nat.not_lt.mpr long), take, check, drop, ne_eq, not_true_eq_false,
    if_false, h]

theorem snapshot_decodes {p : Config.Params} {samples : List Sample}
    (fits : samples.length = p.ringN) :
    telemetryDataLength p p.typeSnapshot = some (samplesBytes samples).length ∧
    decodeTelemetry p p.typeSnapshot (samplesBytes samples) = .ok (.telemSnapshot samples) := by
  simp [telemetryDataLength, decodeTelemetry, Laws.FrameSize.samplesBytes_length, ← fits,
    decodeSamples_samplesBytes]

theorem timesync_decodes {p : Config.Params} (types : p.typeSnapshot ≠ p.typeTimesync) (t : U32) :
    telemetryDataLength p p.typeTimesync = some (be32 t).length ∧
    decodeTelemetry p p.typeTimesync (be32 t) = .ok (.telemTimesync t) := by
  simp [telemetryDataLength, decodeTelemetry, types.symm, be32]

/-! ## Both -/

/-- What travels to the host is a response, a snapshot or a time-sync (R80). -/
theorem deviceFrame_cases {i : Instr} (h : i.direction = .deviceToHost) :
    Machine.isResponse i = true ∨ (∃ samples, i = .telemSnapshot samples) ∨
    ∃ t, i = .telemTimesync t := by
  cases i with
  | respAck | respError | respStatus | respDuty => exact .inl rfl
  | telemSnapshot samples => exact .inr (.inl ⟨samples, rfl⟩)
  | telemTimesync t => exact .inr (.inr ⟨t, rfl⟩)
  | _ => cases h

/-- Settles O2: a response by its length byte and id, a telemetry frame by the magic and its
type. -/
theorem deviceFramesRoundTrip : Obligations.DeviceFramesRoundTrip := by
  intro p i rest valid fits device
  have ⟨_, _, _, _, types, _⟩ := valid
  rcases deviceFrame_cases device with response | ⟨samples, rfl⟩ | ⟨t, rfl⟩
  · obtain ⟨encoded, decoded, nonempty, short⟩ := response_decodes response p
    rw [encoded]
    exact decodeDeviceFrame_shortFrame rest (response_firstByte_ne_magic valid response) nonempty
      (by omega) decoded
  · obtain ⟨len, decoded⟩ := snapshot_decodes (by simpa [Instr.fits] using fits)
    exact decodeDeviceFrame_telemetryFrame rest len decoded
  · obtain ⟨len, decoded⟩ := timesync_decodes types t
    exact decodeDeviceFrame_telemetryFrame rest len decoded

/-- Settles O10: telemetry begins with the magic, a response with its length byte. -/
theorem firstByteTellsTelemetry : Obligations.FirstByteTellsTelemetry := by
  intro p i valid device
  rcases deviceFrame_cases device with response | telemetry
  · obtain ⟨encoded, -⟩ := response_decodes response p
    have first : (encode p i).head? ≠ some p.telemMagic := by
      rw [encoded]
      simpa [shortFrame] using response_firstByte_ne_magic valid response
    refine iff_of_false first ?_
    rintro (⟨samples, rfl⟩ | ⟨t, rfl⟩) <;> cases response
  · refine iff_of_true ?_ telemetry
    rcases telemetry with ⟨samples, rfl⟩ | ⟨t, rfl⟩ <;> rfl

/-- Settles O11: the two short frames, with the checksum's sum written out (R110). -/
theorem responseFrameBytes : Obligations.ResponseFrameBytes := by
  intro p op d
  constructor
  · simp [encode, instrBody, shortFrame, checksum8_cons, respAckId]
  · simp [encode, instrBody, shortFrame, checksum8_cons, respDutyId, be16, BitVec.add_assoc]

end Sys2Proof
end

section
/-! What a step sends: a device frame that runs, and the error of a wrong payload length. -/

namespace Sys2Proof.Machine

/-- Every device frame runs as its one `Send` (R84, R86, R87). -/
theorem exec_deviceFrame {i : Instr} (h : i.direction = .deviceToHost) (s : State) :
    exec i s = .next (s.send (encode s.params i)) := by
  cases i with
  | respAck | respError | respStatus | respDuty | telemSnapshot | telemTimesync => rfl
  | _ => cases h

/-- Settles O51: each frame's one `Send`, with its bytes written out. -/
theorem deviceFramesAreSent : Obligations.DeviceFramesAreSent := by
  intro s op code fw cfg d samples t
  simp only [List.append_assoc]
  exact ⟨exec_deviceFrame rfl s, exec_deviceFrame rfl s, exec_deviceFrame rfl s,
    exec_deviceFrame rfl s, exec_deviceFrame rfl s, exec_deviceFrame rfl s⟩

/-- A COOP step that is due, with a complete body received, runs the body's instruction once its
bytes are consumed (R172). -/
theorem step_completeBody {s : State} {rest : List Event} (due : s.CoopDue rest)
    (top : s.coop.pos = .passStart) (body : s.coop.pstate = .awaitBody)
    (complete : s.coop.plen.toNat + 1 ≤ s.ext.inbound.length) :
    step s = exec s.bodyInstr ({ s with sched.script := rest } : State).afterBody := by
  have receives : ∀ t : State, t.coop = s.coop → t.coopStep = t.receiveBody := fun t same => by
    simp [State.coopStep, State.loopPass, same, top, body]
  calc step s = ({ s with sched.script := rest } : State).coopStep := step_scripted s .coop rest due
    _ = ({ s with sched.script := rest } : State).receiveBody := receives _ rfl
    _ = exec s.bodyInstr ({ s with sched.script := rest } : State).afterBody :=
      State.receiveBody_complete _ complete

/-- Settles O16: the decoder refuses the length, and the refusal is sent as InvalidPayload. -/
theorem wrongArityReply : Obligations.WrongArityReply := by
  intro s rest o due top body complete check opcode wrong
  have refused : s.bodyInstr = .respError (opcodeByte o) (errorCode .invalidPayload) := by
    rw [State.bodyInstr, check, decodeBody_checksum, opcode, decodeCommand_badArity wrong]
    rfl
  have sum : checksum8 [0xA1, opcodeByte o, errorCode .invalidPayload] =
      0xA1 + opcodeByte o + 0x01 := by
    simp [checksum8_cons, errorCode, BitVec.add_assoc]
  rw [step_completeBody due top body complete, refused]
  refine congrArg Host.Outcome.next ((State.raise_bytes _ .invalidPayload (opcodeByte o)).trans ?_)
  rw [sum]
  rfl

end Sys2Proof.Machine
end

section
/-! The integrity generators (R110 to R115): the checksum as a sum, and the CRC's residue. -/

namespace Sys2Proof

/-! ## The checksum (R110 to R112) -/

theorem checksum8_eq_sum (s : List Byte) : checksum8 s = s.sum := by
  induction s with
  | nil => rfl
  | cons b rest ih => rw [checksum8_cons, ih, List.sum_cons]

/-- Overwriting a byte moves the checksum by the difference of the two bytes, so it shows whenever
the byte is a new one. -/
theorem checksum8_set_eq_iff {s : List Byte} {i : Nat} (h : i < s.length) (b : Byte) :
    checksum8 (s.set i b) = checksum8 s ↔ b = s[i] := by
  rw [checksum8_eq_sum, checksum8_eq_sum, List.sum_set', dif_pos h, add_eq_left, neg_add_eq_zero,
    eq_comm]

/-- A single-bit flip changes a byte, as a mask with one bit in range is not zero. -/
theorem xor_bit_ne_self (b : Byte) {k : Nat} (h : k < 8) : b ^^^ (1#8 <<< k) ≠ b := by
  intro same
  have flipped := congrArg (BitVec.getLsbD · k) same
  simp [h] at flipped

/-- Settles O6: a flip makes a different byte, in the region and in the checksum alike. -/
theorem singleBitFlipCaught : Obligations.SingleBitFlipCaught := by
  intro s i k h bit
  exact ⟨fun same => xor_bit_ne_self s[i] bit ((checksum8_set_eq_iff h _).1 same.symm),
    xor_bit_ne_self (checksum8 s) bit⟩

/-- Settles O7: the checksum is a sum, which no permutation and no zero changes. -/
theorem checksumIgnoresOrder : Obligations.ChecksumIgnoresOrder := by
  intro s t
  simp only [checksum8_eq_sum]
  refine ⟨fun perm => perm.sum_eq, ?_⟩
  rw [List.sum_append, List.sum_singleton]
  exact add_zero _

/-! ## The CRC (R113 to R115) -/

@[simp] theorem crcShift_zero (poly : Byte) : crcShift poly 0 = 0 := by
  simp [crcShift]

/-- With an odd polynomial a shift loses nothing: the bit that leaves on the left comes back as the
polynomial's low bit. -/
theorem crcShift_eq_zero_iff {poly : Byte} (odd : poly[0] = true) (c : Byte) :
    crcShift poly c = 0 ↔ c = 0 := by
  refine ⟨fun zero => ?_, by rintro rfl; exact crcShift_zero poly⟩
  rw [crcShift] at zero
  split at zero
  · have low := congrArg (BitVec.getLsbD · 0) zero
    simp [odd] at low
  · next top =>
    rw [BitVec.msb_eq_decide] at top
    simp only [decide_eq_true_eq] at top
    bv_omega

/-- The eight shifts of R113 act on the XOR of the running value and the byte. -/
theorem crcByte_eq_iterate (poly c b : Byte) : crcByte poly c b = (crcShift poly)^[8] (c ^^^ b) :=
  rfl

theorem crcByte_self (poly c : Byte) : crcByte poly c c = 0 := by
  rw [crcByte_eq_iterate, BitVec.xor_self]
  exact Function.iterate_fixed (crcShift_zero poly) 8

theorem iterate_crcShift_eq_zero_iff {poly : Byte} (odd : poly[0] = true) (n : Nat)
    (c : Byte) : (crcShift poly)^[n] c = 0 ↔ c = 0 := by
  induction n generalizing c with
  | zero => rfl
  | succ n ih => rw [Function.iterate_succ_apply, ih, crcShift_eq_zero_iff odd]

theorem crcByte_eq_zero_iff {poly : Byte} (odd : poly[0] = true) (c b : Byte) :
    crcByte poly c b = 0 ↔ c = b := by
  rw [crcByte_eq_iterate, iterate_crcShift_eq_zero_iff odd]
  exact BitVec.xor_eq_zero_iff

/-- With a zero final XOR the CRC is the running value itself, and one more byte is one more
`crcByte` from it. -/
theorem crc8_append_singleton {p : Config.Params} (plain : p.crcXorOut = 0) (s : List Byte)
    (c : Byte) : crc8 p (s ++ [c]) = crcByte p.crcPoly (crc8 p s) c := by
  simp [crc8_eq_foldl, plain]

/-- Settles O8: the last byte meets the running CRC in an XOR, zero when they agree; the shifts keep
zero, and with an odd polynomial reach it from nothing else. -/
theorem crcResidueIsZero : Obligations.CrcResidueIsZero := by
  intro p s c plain
  rw [crc8_append_singleton plain, crc8_append_singleton plain]
  exact ⟨crcByte_self _ _, fun poly => crcByte_eq_zero_iff (by rw [poly]; decide) _ _⟩

/-- Settles O9: the CRC reads no parameter but its three, so the nine bytes evaluate. -/
theorem crcCheckValue : Obligations.CrcCheckValue := by
  intro p poly init plain
  rw [crc8, poly, init, plain]
  decide +kernel

end Sys2Proof
end

section
/-! The values of a Linear segment as exact integers, and the ramp they make (R127, R132). -/

namespace Sys2Proof.Machine

/-! ## The interpolation without widths (R10, R127) -/

/-- `start + trunc_div(k * (end - start), T)`: the value of step `k` of a Linear segment (R127). -/
def rampValue (a b : U16) (T : U32) (k : Int) : Int :=
  a.toNat + Int.tdiv (k * ((b.toNat : Int) - a.toNat)) T.toNat

theorem tdiv_eq_zero_iff {d T : Int} (hT : 0 < T) : Int.tdiv d T = 0 ↔ |d| < T := by
  have quotient : (Int.tdiv d T).natAbs = d.natAbs / T.natAbs := Int.natAbs_tdiv d T
  rw [← Int.natAbs_eq_zero, quotient, Nat.div_eq_zero_iff, abs_lt]
  omega

/-- Neither the accumulator nor the value leaves its width, so the model's value is the exact one
(R128). -/
theorem linearValue_toNat (a b : U16) (T : U32) {k : Nat} (hT : 1 ≤ T.toNat) (hk : k ≤ T.toNat) :
    ((linearValue a (BitVec.ofInt 64 ((k : Int) * ((b.toNat : Int) - a.toNat))) T).toNat : Int) =
      rampValue a b T k := by
  have ha := a.isLt
  have hb := b.isLt
  have hT' := T.isLt
  have between := tdiv_between k T.toNat ((b.toNat : Int) - a.toNat)
    (by omega) (by omega) (by omega)
  have exact_acc : (BitVec.ofInt 64 ((k : Int) * ((b.toNat : Int) - a.toNat))).toInt =
      (k : Int) * ((b.toNat : Int) - a.toNat) := by
    have low : -65536 < (b.toNat : Int) - a.toNat := by omega
    have high : (b.toNat : Int) - a.toNat < 65536 := by omega
    have steps : (k : Int) < 4294967296 := by omega
    rw [BitVec.toInt_ofInt]
    exact Int.bmod_eq_of_le (by norm_num; nlinarith) (by norm_num; nlinarith)
  rw [linearValue, exact_acc, BitVec.toNat_ofInt, rampValue]
  generalize Int.tdiv _ _ = q at between ⊢
  rcases Int.le_total 0 ((b.toNat : Int) - a.toNat) with up | down
  · have := between.1 up
    omega
  · have := between.2 down
    omega

/-! ## The ramp (R132) -/

section

variable (a b : U16) {T : U32}

theorem rampValue_mono (hT : 1 ≤ T.toNat) (up : a.toNat ≤ b.toNat) {k l : Int} (hkl : k ≤ l) :
    rampValue a b T k ≤ rampValue a b T l := by
  have num : k * ((b.toNat : Int) - a.toNat) ≤ l * ((b.toNat : Int) - a.toNat) :=
    Int.mul_le_mul_of_nonneg_right hkl (by omega)
  exact Int.add_le_add_left (Int.tdiv_le_tdiv (by omega) num) _

theorem rampValue_anti (hT : 1 ≤ T.toNat) (down : b.toNat ≤ a.toNat) {k l : Int} (hkl : k ≤ l) :
    rampValue a b T l ≤ rampValue a b T k := by
  have num : l * ((b.toNat : Int) - a.toNat) ≤ k * ((b.toNat : Int) - a.toNat) :=
    Int.mul_le_mul_of_nonpos_right hkl (by omega)
  exact Int.add_le_add_left (Int.tdiv_le_tdiv (by omega) num) _

/-- The last step is exact: `T` divides `T * (end - start)`. -/
theorem rampValue_last (hT : 1 ≤ T.toNat) : rampValue a b T T.toNat = b.toNat := by
  rw [rampValue, Int.mul_tdiv_cancel_left _ (by omega)]
  omega

/-- The distance to the ideal is the division's remainder. -/
theorem rampValue_near (hT : 1 ≤ T.toNat) (k : Int) :
    |(T.toNat : Int) * (rampValue a b T k - a.toNat) - k * ((b.toNat : Int) - a.toNat)| <
      T.toNat := by
  rw [rampValue, add_sub_cancel_left, abs_lt]
  generalize k * ((b.toNat : Int) - a.toNat) = x
  have split := Int.mul_tdiv_add_tmod x T.toNat
  have low := Int.lt_tmod_of_pos x (b := T.toNat) (by omega)
  have high := Int.tmod_lt_of_pos x (b := T.toNat) (by omega)
  omega

/-- The first step moves unless the whole ramp is shorter than its number of steps. -/
theorem rampValue_one_eq_start_iff (hT : 1 ≤ T.toNat) :
    rampValue a b T 1 = a.toNat ↔ |(b.toNat : Int) - a.toNat| < T.toNat := by
  rw [rampValue, one_mul, add_eq_left]
  exact tdiv_eq_zero_iff (by omega)

end

/-- Settles O33: the values are those of `rampValue`, a truncated division by `T`. -/
theorem rampProperties : Obligations.RampProperties := by
  intro a b T v hv hT
  have value {k : Nat} (hk : k ≤ T.toNat) : v k = rampValue a b T k :=
    (hv k).trans (linearValue_toNat a b T hT hk)
  have first : v 1 = rampValue a b T 1 := value hT
  refine ⟨fun k _ hk => ?_, ?_, fun k _ hk => ?_, ?_, ?_⟩
  · rw [value hk.le, value hk]
    exact ⟨fun up => rampValue_mono a b hT up (by omega),
      fun down => rampValue_anti a b hT down.le (by omega)⟩
  · rw [value le_rfl, rampValue_last a b hT]
  · rw [value hk]
    exact rampValue_near a b hT k
  · rw [first, rampValue, one_mul]
  · rw [first]
    exact rampValue_one_eq_start_iff a b hT

end Sys2Proof.Machine
end

section
/-! The queue seen as a list: what Enqueue puts in and Start takes out (R122 to R124). -/

namespace Sys2Proof.Machine

/-! ## Start, by the live segments -/

theorem State.start_of_live_nil {s : State} (ok : s.QueueOk) (live : s.liveSegments = []) :
    s.start = (false, { s with tick.autoActive := false }) := by
  refine s.start_empty ?_
  by_contra queued
  have pop := s.liveSegments_pop (s.readQueue s.tick.qTail) ok.1 ok.2 (by simpa using queued)
  simp [live] at pop

/-- Start loads the first live segment, and the others stay live. -/
theorem State.start_of_live_cons {s : State} {g : Segment} {r : List Segment} (ok : s.QueueOk)
    (live : s.liveSegments = g :: r) :
    s.start = (true, s.loadSegment g) ∧ (s.loadSegment g).liveSegments = r := by
  have queued := State.queueEmpty_of_live live
  have pop := s.liveSegments_pop (s.readQueue s.tick.qTail) ok.1 ok.2 queued
  rw [live, List.cons.injEq] at pop
  obtain ⟨rfl, left⟩ := pop
  exact ⟨s.start_pop queued, left.symm⟩

/-! ## Enqueue with nothing falling inside -/

/-- With room and nothing falling inside, Enqueue writes the head's slot and publishes it (R122). -/
theorem enqueue_room_quiet {s : State} (seg : Segment) (quiet : s.Quiet)
    (room : s.queueFull = false) :
    enqueue seg s = (s.writeQueue s.coop.qHead seg).setQHead (s.nextSlot s.coop.qHead) := by
  rw [enqueue_room seg (by rwa [s.yield_quiet quiet]), s.yield_quiet quiet, s.yield_quiet quiet,
    State.yield_quiet _ (by simpa using quiet)]

/-- The slot inside the array that was just written reads back what was written (R11). -/
theorem State.readQueue_writeQueue {s : State} {i : Nat} (inside : i < s.coop.queue.length)
    (seg : Segment) : (s.writeQueue i seg).readQueue i = seg := by
  simp [State.readQueue, inside]

/-- Settles O30: the queue is full exactly at `Q_SLOTS - 1` live segments, publishing the written
slot appends it, and the tail's slot is the first live segment. -/
theorem queueIsFifo : Obligations.QueueIsFifo := by
  intro s seg h quiet
  have ok := h.queueOk
  refine ⟨s.liveSegments_length_le ok, fun below => ?_, fun full => ?_, s.start_of_live_nil ok,
    fun g r live => ?_⟩
  · have room : s.queueFull = false := by
      rw [← Bool.not_eq_true, s.queueFull_iff ok]
      exact below.ne
    have publish := (s.writeQueue s.coop.qHead seg).liveSegments_publish ok.1 ok.2 room
    rw [s.liveSegments_write seg ok.1 ok.2] at publish
    rw [enqueue_room_quiet seg quiet room]
    refine ⟨publish.trans ?_, rfl⟩
    exact congrArg (s.liveSegments ++ [·]) (State.readQueue_writeQueue (h.queueLength ▸ h.head) seg)
  · have yielded := s.yield_quiet quiet
    rw [enqueue_full seg (by rw [yielded, s.queueFull_iff ok]; exact full), yielded]
  · obtain ⟨started, left⟩ := State.start_of_live_cons ok live
    exact ⟨_, started, left, rfl, rfl, rfl, rfl, rfl, rfl, rfl⟩

end Sys2Proof.Machine
end

section
/-! One call of Advance on a segment with steps left, and the run of a whole segment (R125 to
R127, R130, R131). -/

namespace Sys2Proof.Machine

/-! ## A step of the active segment -/

/-- The active segment one step further, before Advance looks for its end (R125). -/
def State.stepped (s : State) : State :=
  { s with tick.segAcc := s.nextAcc, tick.segStep := s.tick.segStep + 1 }

theorem State.segmentStep_of_more {s : State} (more : s.tick.segStep + 1 ≠ s.tick.segTotal) :
    s.segmentStep = (s.segValue, s.stepped) :=
  if_neg more

theorem State.segmentStep_of_last {s : State} (last : s.tick.segStep + 1 = s.tick.segTotal) :
    s.segmentStep = (s.segValue, s.stepped.start.2) :=
  if_pos last

/-- Whatever follows the step, the call answers its value. -/
theorem State.segmentStep_fst (s : State) : s.segmentStep.1 = s.segValue := by
  by_cases last : s.tick.segStep + 1 = s.tick.segTotal
  · rw [State.segmentStep_of_last last]
  · rw [State.segmentStep_of_more last]

theorem State.QueueOk.stepped {s : State} (ok : s.QueueOk) : s.stepped.QueueOk := ok

@[simp] theorem State.stepped_liveSegments (s : State) :
    s.stepped.liveSegments = s.liveSegments := rfl

/-- The last step of a segment with none queued behind it ends the trajectory (R131). -/
theorem State.segmentStep_last_of_nil {s : State} (ok : s.QueueOk)
    (last : s.tick.segStep + 1 = s.tick.segTotal) (live : s.liveSegments = []) :
    s.segmentStep = (s.segValue, { s.stepped with tick.autoActive := false }) := by
  rw [State.segmentStep_of_last last, State.start_of_live_nil ok.stepped live]

/-- The last step of a segment starts the one queued behind it (R130). -/
theorem State.segmentStep_last_of_cons {s : State} {g : Segment} {r : List Segment} (ok : s.QueueOk)
    (last : s.tick.segStep + 1 = s.tick.segTotal) (live : s.liveSegments = g :: r) :
    s.segmentStep = (s.segValue, s.stepped.loadSegment g) ∧
    (s.stepped.loadSegment g).liveSegments = r := by
  obtain ⟨started, left⟩ := State.start_of_live_cons ok.stepped live
  rw [State.segmentStep_of_last last, started]
  exact ⟨rfl, left⟩

/-- Advance leaves no segment that has steps left (R125). -/
theorem State.advance_of_lt {s : State} (slots : 1 ≤ s.params.qSlots)
    (more : s.tick.segStep < s.tick.segTotal) : s.advance = s.segmentStep := by
  obtain ⟨n, rounds⟩ := Nat.exists_eq_add_of_le' slots
  rw [State.advance, rounds, State.skipCompleted, if_pos more]

/-- The segment a call finds one step from its end has that step left: a completed segment never
stays active (R129). -/
theorem State.SegmentOk.lt_of_last {s : State} (ok : s.SegmentOk)
    (last : s.tick.segStep + 1 = s.tick.segTotal) : s.tick.segStep < s.tick.segTotal := by
  obtain ⟨-, -, more | ⟨total, step⟩, -⟩ := ok
  · exact more
  · rw [step, total] at last
    cases last

/-! ## The value of a step -/

/-- The value of step `k` of a segment (R126, R127). -/
def stepValue (shape : Shape) (a b : U16) (T : U32) (k : Int) : Int :=
  match shape with
  | .step => b.toNat
  | .linear => rampValue a b T k

/-- Either shape ends with exactly `end` (R126, R132). -/
theorem stepValue_last (shape : Shape) (a b : U16) {T : U32} (hT : 1 ≤ T.toNat) :
    stepValue shape a b T T.toNat = b.toNat := by
  cases shape with
  | step => rfl
  | linear => exact rampValue_last a b hT

theorem State.segValue_eq_stepValue {s : State} (ok : s.SegmentOk)
    (more : s.tick.segStep < s.tick.segTotal) :
    (s.segValue.toNat : Int) = stepValue s.tick.segShape s.tick.segStart s.tick.segEnd
      s.tick.segTotal ((s.tick.segStep.toNat : Int) + 1) := by
  cases shape : s.tick.segShape with
  | step => simp [State.segValue, shape, stepValue]
  | linear => exact (s.segValue_between ok more shape).1

/-- Below a segment's total its step counter does not wrap. -/
theorem toNat_step_add_one {k T : U32} (more : k < T) : (k + 1).toNat = k.toNat + 1 := by
  bv_omega

theorem State.segValue_of_last {s : State} (ok : s.SegmentOk)
    (last : s.tick.segStep + 1 = s.tick.segTotal) : s.segValue = s.tick.segEnd := by
  have more := ok.lt_of_last last
  have total := toNat_step_add_one more
  rw [last] at total
  have value := State.segValue_eq_stepValue ok more
  rw [show (s.tick.segStep.toNat : Int) + 1 = s.tick.segTotal.toNat by omega,
    stepValue_last _ _ _ (by omega)] at value
  exact BitVec.eq_of_toNat_eq (by exact_mod_cast value)

/-- A step that is not the last keeps the segment's invariant (R125, R128). -/
theorem State.SegmentOk.stepped {s : State} (ok : s.SegmentOk)
    (more : s.tick.segStep < s.tick.segTotal) (next : s.tick.segStep + 1 ≠ s.tick.segTotal) :
    s.stepped.SegmentOk := by
  obtain ⟨legalStart, legalEnd, -, -⟩ := id ok
  refine ⟨legalStart, legalEnd, .inl ?_, fun linear => ?_⟩
  · show s.tick.segStep + 1 < s.tick.segTotal
    bv_omega
  · show s.nextAcc.toInt = ((s.tick.segStep + 1).toNat : Int) * _
    rw [s.nextAcc_toInt ok more linear, toNat_step_add_one more]
    rfl

/-! ## Chaining and the end of the queue (R130, R131) -/

/-- Settles O34: the call is the segment's last step, which starts the first live segment. -/
theorem chainingHasNoIdleTick : Obligations.ChainingHasNoIdleTick := by
  intro s g r h active last live
  have more := State.SegmentOk.lt_of_last (h.active active) last
  obtain ⟨call, left⟩ := State.segmentStep_last_of_cons h.queueOk last live
  rw [State.advance_of_lt (Nat.zero_lt_of_lt h.head) more, call]
  exact ⟨rfl, left, rfl, rfl, rfl, rfl, rfl, rfl⟩

/-- A tick that finds a trajectory running and no request outputs what Advance returns, and leaves
`auto_active` and the handshakes as Advance does (R140 to R142). -/
theorem State.tickStep_running {s : State} (c : U16) (enabled : s.coop.automationEnabled = true)
    (idle : s.startRequested = false) (active : s.tick.autoActive = true) :
    s.tickStep c = (s.advance.2.tickDrive s.advance.1).tickSample s.advance.1 c := by
  rw [State.tickStep_eq, s.tickRequest_idle enabled idle, State.tickDuty, if_pos active]

/-- A tick that finds no trajectory, no request and no new duty holds the last duty (R142). -/
theorem State.tickStep_holds {s : State} (c : U16) (enabled : s.coop.automationEnabled = true)
    (idle : s.startRequested = false) (inactive : s.tick.autoActive = false)
    (nothing : s.dutyPending = false) : (s.tickStep c).tick.dutyOut = s.tick.dutyOut := by
  obtain ⟨out, -⟩ := s.tickStep_duty c
  rw [out, s.tickRequest_idle enabled idle, State.tickDuty, if_neg (by simp [inactive]),
    if_neg (by simp [nothing])]

/-- Settles O35: the last step's value is `end`, and with `auto_active` cleared and the handshakes
as they were the next tick holds it. -/
theorem endOfQueueHolds : Obligations.EndOfQueueHolds := by
  intro s c h enabled idle active last live
  have segment := h.active active
  have call : s.advance = (s.tick.segEnd, { s.stepped with tick.autoActive := false }) := by
    rw [State.advance_of_lt (Nat.zero_lt_of_lt h.head) (segment.lt_of_last last),
      State.segmentStep_last_of_nil h.queueOk last live, State.segValue_of_last segment last]
  have ticked := State.tickStep_running c enabled idle active
  rw [call] at ticked
  rw [ticked]
  refine ⟨rfl, rfl, fun nothing c' => ?_⟩
  exact State.tickStep_holds c' enabled idle rfl nothing

/-! ## The run of a segment -/

/-- The values of the next `n` steps of the active segment (R126, R127). -/
def State.nextValues (s : State) (n : Nat) : List Int :=
  (List.range n).map fun k : Nat =>
    stepValue s.tick.segShape s.tick.segStart s.tick.segEnd s.tick.segTotal
      ((s.tick.segStep.toNat : Int) + k + 1)

/-- The next values are this call's value, then the next ones of the segment one step further. -/
theorem State.nextValues_succ {s : State} (ok : s.SegmentOk)
    (more : s.tick.segStep < s.tick.segTotal) (n : Nat) :
    s.nextValues (n + 1) = (s.segValue.toNat : Int) :: s.stepped.nextValues n := by
  have step : s.stepped.tick.segStep.toNat = s.tick.segStep.toNat + 1 := toNat_step_add_one more
  unfold State.nextValues
  rw [List.range_succ_eq_map, List.map_cons, List.map_map, State.segValue_eq_stepValue ok more,
    step, Nat.cast_zero, add_zero]
  refine congrArg (_ :: ·) (List.map_congr_left fun k _ => congrArg (stepValue _ _ _ _) ?_)
  push_cast
  ring

/-- The calls of Advance that a segment has left return the values of its steps; with none queued
behind it the trajectory then ends. -/
theorem State.advances_segment {n : Nat} {s : State} (slots : 1 ≤ s.params.qSlots)
    (ok : s.SegmentOk) (left : s.tick.segStep.toNat + (n + 1) = s.tick.segTotal.toNat) :
    (s.advances (n + 1)).1.map (fun v => (v.toNat : Int)) = s.nextValues (n + 1) ∧
    (s.queueEmpty = true → (s.advances (n + 1)).2.tick.autoActive = false) := by
  induction n generalizing s with
  | zero =>
    have last : s.tick.segStep + 1 = s.tick.segTotal := by bv_omega
    have more := ok.lt_of_last last
    have call := (State.advance_of_lt slots more).trans (State.segmentStep_of_last last)
    rw [State.nextValues_succ ok more, State.advances, call]
    exact ⟨rfl, fun empty => by rw [s.stepped.start_empty empty]; rfl⟩
  | succ n ih =>
    have more : s.tick.segStep < s.tick.segTotal := by bv_omega
    have next : s.tick.segStep + 1 ≠ s.tick.segTotal := by bv_omega
    have call := (State.advance_of_lt slots more).trans (State.segmentStep_of_more next)
    have left' : s.stepped.tick.segStep.toNat + (n + 1) = s.tick.segTotal.toNat := by
      have step : s.stepped.tick.segStep.toNat = _ := toNat_step_add_one more
      omega
    obtain ⟨values, ends⟩ := ih (s := s.stepped) slots (ok.stepped more next) left'
    rw [State.nextValues_succ ok more, State.advances, call]
    exact ⟨congrArg (_ :: ·) values, ends⟩

/-- Settles O32: a fresh segment has all its values left. -/
theorem segmentRun : Obligations.SegmentRun := by
  intro s slots _ ok fresh steps
  obtain ⟨n, total⟩ := Nat.exists_eq_add_of_le' steps
  rw [total]
  obtain ⟨values, ends⟩ := State.advances_segment (n := n) slots ok
    (by simpa [fresh] using total.symm)
  refine ⟨values.trans (List.map_congr_left fun k _ => ?_), ends⟩
  cases s.tick.segShape with
  | step => rfl
  | linear => simp [stepValue, rampValue, fresh, total]

end Sys2Proof.Machine
end

section
/-! Zero-step segments: the call of Advance that finds one leaves it, and those behind it (R129). -/

namespace Sys2Proof.Machine

/-! ## Leaving the zero-step segments -/

/-- A segment with no step at all is completed when Start loads it. -/
theorem not_lt_of_total_zero {k T : U32} (zero : T = 0) : ¬ k < T := by
  rw [zero]
  exact BitVec.not_lt_zero

/-- With nothing queued behind a zero-step segment, its end is the value to hold (R129, R131). -/
theorem State.skipCompleted_of_nil {s : State} (n : Nat) (ok : s.QueueOk)
    (zero : s.tick.segTotal = 0) (live : s.liveSegments = []) :
    s.skipCompleted (n + 1) = (some s.tick.segEnd, { s with tick.autoActive := false }) := by
  rw [State.skipCompleted, if_neg (not_lt_of_total_zero zero), State.start_of_live_nil ok live]

/-- Behind a zero-step segment the next one is looked at in the same call (R129). -/
theorem State.skipCompleted_of_cons {s : State} {g : Segment} {r : List Segment} (n : Nat)
    (ok : s.QueueOk) (zero : s.tick.segTotal = 0) (live : s.liveSegments = g :: r) :
    s.skipCompleted (n + 1) = (s.loadSegment g).skipCompleted n := by
  rw [State.skipCompleted, if_neg (not_lt_of_total_zero zero), (State.start_of_live_cons ok live).1]

/-- `t` is what Advance has made of `s`, whose active segment and queued `z` have no step, when it
has come to the last of these: that one is active, and `rest` is still queued (R129). -/
structure ZeroStepsLeft (s : State) (z rest : List Segment) (t : State) : Prop where
  period : t.periodUs = s.periodUs
  queueOk : t.QueueOk
  live : t.liveSegments = rest
  total : t.tick.segTotal = 0
  segEnd : t.tick.segEnd = (z.map (·.endDuty)).getLastD s.tick.segEnd

/-- One round of Advance's loop for each zero-step segment (R129). -/
theorem State.skipCompleted_zeroSteps {s : State} (z : List Segment) {rest : List Segment} (n : Nat)
    (ok : s.QueueOk) (zero : s.tick.segTotal = 0) (live : s.liveSegments = z ++ rest)
    (zeros : ∀ x ∈ z, x.duration / s.periodUs = 0) :
    ∃ t, ZeroStepsLeft s z rest t ∧ s.skipCompleted (z.length + n) = t.skipCompleted n := by
  induction z generalizing s with
  | nil => exact ⟨s, ⟨rfl, ok, live, zero, rfl⟩, by rw [List.length_nil, Nat.zero_add]⟩
  | cons x z ih =>
    obtain ⟨zeroHead, zeroTail⟩ := List.forall_mem_cons.1 zeros
    have queueOk : (s.loadSegment x).QueueOk := ⟨ok.1, Nat.mod_lt _ (Nat.zero_lt_of_lt ok.2)⟩
    obtain ⟨t, reached, rounds⟩ := ih (s := s.loadSegment x) queueOk zeroHead
      (State.start_of_live_cons ok live).2 zeroTail
    refine ⟨t, { reached with segEnd := ?_ }, ?_⟩
    · rw [reached.segEnd, List.map_cons, List.getLastD_cons]
      rfl
    · rw [List.length_cons, Nat.add_right_comm, State.skipCompleted_of_cons _ ok zero live, rounds]

/-- Zero-step segments and nothing else: the last one's end is held, and the trajectory ends. -/
theorem State.advance_zeroSteps {s : State} (ok : s.QueueOk) (zero : s.tick.segTotal = 0)
    (zeros : ∀ x ∈ s.liveSegments, x.duration / s.periodUs = 0) :
    s.advance.1 = (s.liveSegments.map (·.endDuty)).getLastD s.tick.segEnd ∧
    s.advance.2.tick.autoActive = false ∧ s.advance.2.liveSegments = [] := by
  obtain ⟨n, slots⟩ : ∃ n, s.params.qSlots = s.liveSegments.length + (n + 1) := by
    have length := s.liveSegments_length_le ok
    have pos := Nat.zero_lt_of_lt ok.1
    exact ⟨s.params.qSlots - s.liveSegments.length - 1, by omega⟩
  obtain ⟨t, left, rounds⟩ := State.skipCompleted_zeroSteps s.liveSegments (n + 1) ok zero
    (List.append_nil _).symm zeros
  rw [State.skipCompleted_of_nil n left.queueOk left.total left.live] at rounds
  rw [State.advance, slots, rounds]
  exact ⟨left.segEnd, rfl, left.live⟩

/-- A segment of at least one step behind zero-step ones: the call is that segment's first step. -/
theorem State.advance_to_segment {s : State} {z r : List Segment} {g : Segment} (ok : s.QueueOk)
    (zero : s.tick.segTotal = 0) (live : s.liveSegments = z ++ g :: r)
    (zeros : ∀ x ∈ z, x.duration / s.periodUs = 0) (steps : g.duration / s.periodUs ≠ 0) :
    ∃ t, ZeroStepsLeft s z (g :: r) t ∧
      s.skipCompleted s.params.qSlots = (none, t.loadSegment g) ∧
      s.advance = (t.loadSegment g).segmentStep := by
  obtain ⟨n, slots⟩ : ∃ n, s.params.qSlots = z.length + (n + 1 + 1) := by
    have length := s.liveSegments_length_le ok
    have pos := Nat.zero_lt_of_lt ok.1
    rw [live, List.length_append, List.length_cons] at length
    exact ⟨s.params.qSlots - z.length - 2, by omega⟩
  obtain ⟨t, left, rounds⟩ := State.skipCompleted_zeroSteps z (n + 1 + 1) ok zero live zeros
  have more : (t.loadSegment g).tick.segStep < (t.loadSegment g).tick.segTotal := by
    show 0 < g.duration / t.periodUs
    rw [left.period]
    exact (BitVec.pos_iff_ne_zero _).2 steps
  rw [State.skipCompleted_of_cons _ left.queueOk left.total left.live, State.skipCompleted,
    if_pos more, ← slots] at rounds
  exact ⟨t, left, rounds, by rw [State.advance, rounds]⟩

/-- Settles O36: the loop leaves the zero-step segments one by one; the call then holds the last end
or takes the first step of the segment it has reached. -/
theorem zeroStepSegmentsSkipped : Obligations.ZeroStepSegmentsSkipped := by
  intro s h active zero
  refine ⟨State.advance_zeroSteps h.queueOk zero, fun z g r T live zeros total steps => ?_⟩
  obtain ⟨t, left, loop, call⟩ :=
    State.advance_to_segment h.queueOk zero live zeros (total ▸ steps)
  obtain ⟨inv, -, reached⟩ := s.skipCompleted_inv s.params.qSlots h active
  rw [loop] at inv reached
  obtain ⟨running, more⟩ := reached rfl
  have rest := (State.start_of_live_cons left.queueOk left.live).2
  have loaded : (t.loadSegment g).tick.segTotal = T := by rw [total, ← left.period]; rfl
  have last (one : T = 1) :
      (t.loadSegment g).tick.segStep + 1 = (t.loadSegment g).tick.segTotal := by
    rw [loaded, one]; rfl
  rw [call]
  refine ⟨?_, fun several => ?_, fun one alone => ?_, fun g' r' one next => ?_⟩
  · rw [State.segmentStep_fst, State.segValue_eq_stepValue (inv.active running) more, loaded]
    show stepValue g.shape g.startDuty g.endDuty T 1 = _
    cases g.shape with
    | step => rfl
    | linear => rw [stepValue, rampValue, one_mul]
  · rw [State.segmentStep_of_more (by rw [loaded]; exact several.symm)]
    exact ⟨rest, rfl, rfl, rfl, rfl, loaded, rfl⟩
  · rw [State.segmentStep_last_of_nil inv.queueOk (last one) (rest.trans alone)]
    exact ⟨rest.trans alone, rfl⟩
  · obtain ⟨step, left'⟩ :=
      State.segmentStep_last_of_cons inv.queueOk (last one) (rest.trans next)
    rw [step, ← left.period]
    exact ⟨left', rfl, rfl, rfl, rfl, rfl, rfl⟩

end Sys2Proof.Machine
end

section
/-! What one tick does (R140 to R145): the duty it decides, its output and its
sample. -/

namespace Sys2Proof.Machine

/-! ## The duty without a trajectory (R133, R141, R142) -/

/-- The start-request check ends automation, or leaves it ended, and takes the request: automation
is disabled, or nothing is active and nothing can start (R131, R141). -/
theorem State.tickRequest_manual {s : State}
    (manual : s.coop.automationEnabled = false ∨
      (s.startRequested = false ∧ s.tick.autoActive = false) ∨
      (s.startRequested = true ∧ s.queueEmpty = true)) :
    s.tickRequest = { s with tick.autoActive := false, tick.autoSeen := s.coop.autoGen } := by
  cases enabled : s.coop.automationEnabled with
  | false => simp [State.tickRequest, enabled]
  | true =>
    rcases manual with disabled | ⟨idle, inactive⟩ | ⟨requested, empty⟩
    · simp [enabled] at disabled
    · have seen : s.coop.autoGen = s.tick.autoSeen := by simpa [State.startRequested] using idle
      rw [s.tickRequest_idle enabled idle, seen, ← inactive]
    · have fails := State.start_empty { s with tick.autoSeen := s.coop.autoGen } empty
      simp [State.tickRequest, enabled, requested, fails]

/-- With no trajectory active, the duty is a pending command's or the held one, and its generation
has then been seen (R142). -/
theorem State.tickDuty_inactive {s : State} (inactive : s.tick.autoActive = false) :
    s.tickDuty =
      (if s.coop.dutyGen = s.tick.dutySeen then s.tick.dutyOut else s.coop.dutyCmd,
        { s with tick.dutySeen := s.coop.dutyGen }) := by
  by_cases same : s.coop.dutyGen = s.tick.dutySeen
  · have nothing : ¬ s.dutyPending = true := by simp [State.dutyPending, same]
    rw [State.tickDuty, if_neg (by simp [inactive]), if_neg nothing, if_pos same, same]
  · simp [State.tickDuty, State.dutyPending, inactive, same]

/-! ## The duty of a trajectory (R141) -/

/-- With a trajectory active after the start-request check, the tick outputs what Advance returns
and has seen what it had seen at the check. -/
theorem State.tickStep_active {s : State} (c : U16)
    (active : s.tickRequest.tick.autoActive = true) :
    (s.tickStep c).tick.dutyOut = s.tickRequest.advance.1 ∧
    (s.tickStep c).tick.dutySeen = s.tickRequest.tick.dutySeen ∧
    (s.tickStep c).tick.autoSeen = s.tickRequest.tick.autoSeen := by
  have engine := s.tickRequest.advance_engineOnly
  rw [State.tickStep_eq, State.tickDuty, if_pos active]
  exact ⟨rfl, engine.dutySeen, engine.autoSeen⟩

/-- Settles O26: the start-request check leaves the trajectory inactive in every manual case, and
in the two others Advance runs on the segment that is active after it. -/
theorem tickChoosesDuty : Obligations.TickChoosesDuty := by
  intro s c
  refine ⟨s.tickStep_coop c, s.tickStep_cfg c, s.tickStep_periodUs c, fun manual => ?_,
    fun enabled idle active => ?_, fun enabled requested queued => ?_⟩
  · rw [State.tickStep_eq, State.tickRequest_manual manual, State.tickDuty_inactive rfl]
    rfl
  · have request := s.tickRequest_idle enabled idle
    have ticked := State.tickStep_active c (request.symm ▸ active)
    rwa [request] at ticked
  · have request := s.tickRequest_starts enabled requested queued
    have ticked := State.tickStep_active c (s := s) (by rw [request]; rfl)
    rwa [request] at ticked

/-! ## The output and the sample (R143 to R145) -/

/-- `t` has the ring of `s`, with its write index and its wraps. -/
structure RingKept (s t : State) : Prop where
  ring : t.tick.ring = s.tick.ring
  widx : t.tick.widx = s.tick.widx
  wrapCount : t.tick.wrapCount = s.tick.wrapCount

theorem RingKept.trans {s t u : State} (h : RingKept s t) (k : RingKept t u) : RingKept s u :=
  ⟨k.ring.trans h.ring, k.widx.trans h.widx, k.wrapCount.trans h.wrapCount⟩

theorem EngineOnly.ringKept {s t : State} (h : EngineOnly s t) : RingKept s t :=
  ⟨h.ring, h.widx, h.wrapCount⟩

theorem State.tickRequest_ringKept (s : State) : RingKept s s.tickRequest := by
  unfold State.tickRequest
  split
  · split
    · have taken : RingKept s { s with tick.autoSeen := s.coop.autoGen } := ⟨rfl, rfl, rfl⟩
      exact taken.trans (State.start_engineOnly _).ringKept
    · exact ⟨rfl, rfl, rfl⟩
  · exact ⟨rfl, rfl, rfl⟩

theorem State.tickDuty_ringKept (s : State) : RingKept s s.tickDuty.2 := by
  cases active : s.tick.autoActive with
  | true =>
    rw [State.tickDuty, if_pos active]
    exact s.advance_engineOnly.ringKept
  | false =>
    rw [State.tickDuty_inactive active]
    exact ⟨rfl, rfl, rfl⟩

/-- Settles O27: deciding the duty keeps the ring and all but TICK's registers, and the sample is
stored at the index the tick found. -/
theorem tickDrivesAndSamples : Obligations.TickDrivesAndSamples := by
  intro s c
  have kept := s.tickRequest_ringKept.trans s.tickRequest.tickDuty_ringKept
  have own : TickOnly s s.tickRequest.tickDuty.2 :=
    s.tickRequest_tickOnly.trans s.tickRequest.tickDuty_tickOnly
  have params := congrArg State.params own
  have cfg := congrArg State.cfg own
  refine ⟨congrArg State.ext (s.tickStep_frame c), ?_, ?_, ?_⟩
  · rw [← kept.ring, ← kept.widx, ← cfg]
    rfl
  · rw [← kept.widx, ← params]
    rfl
  · rw [← kept.widx, ← kept.wrapCount, ← params]
    rfl

/-- Settles O29: the duty written is the tick's new `duty_out`, which the invariant bounds. -/
theorem tickDutyIsLegal : Obligations.TickDutyIsLegal := by
  intro s c h
  have legal := (s.tickStep_inv c h).dutyOut
  rw [s.tickStep_cfg] at legal
  exact ⟨(s.tickStep c).tick.dutyOut, legal,
    congrArg (fun t : State => t.ext.trace) (s.tickStep_frame c)⟩

end Sys2Proof.Machine
end

section
/-! The telemetry duties of a loop pass (R150 to R157): what COOP's step does at each place, and the
passes that COOP runs alone. -/

namespace Sys2Proof.Machine

/-! ## COOP's step at each place of the pass (R52, R151, R154, R156) -/

/-- When COOP is due, the step is COOP's. -/
theorem step_coopDue {s : State} {rest : List Event} (due : s.CoopDue rest) :
    step s = ({ s with sched.script := rest } : State).coopStep := step_scripted s .coop rest due

section

variable {s : State}

theorem State.coopStep_partialBody (pos : s.coop.pos = .passStart)
    (body : s.coop.pstate = .awaitBody) (short : s.ext.inbound.length < s.coop.plen.toNat + 1) :
    s.coopStep = .next s := by
  have receives : s.coopStep = s.receiveBody := by simp [State.coopStep, State.loopPass, pos, body]
  rw [receives, State.receiveBody_partial s short]

theorem State.coopStep_nothingReceived (pos : s.coop.pos = .passStart)
    (await : s.coop.pstate = .awaitLen) (idle : s.ext.inbound = []) :
    s.coopStep = .next (s.setPos .snapFlag) := by
  simp [State.coopStep, State.loopPass, State.available, pos, await, idle]

theorem State.coopStep_streaming (pos : s.coop.pos = .snapFlag)
    (on : s.coop.streamingEnabled = true) : s.coopStep = .next (s.setPos .snapAvail) := by
  simp [State.coopStep, State.snapFlagStep, pos, on]

theorem State.coopStep_notStreaming (pos : s.coop.pos = .snapFlag)
    (off : s.coop.streamingEnabled = false) : s.coopStep = .next (s.setPos .syncAvail) := by
  simp [State.coopStep, State.snapFlagStep, pos, off]

/-- A byte pending turns the snapshot away (R155). -/
theorem State.coopStep_snapAvail_byte (pos : s.coop.pos = .snapAvail)
    (byte : s.ext.inbound ≠ []) : s.coopStep = .next (s.setPos .syncAvail) := by
  simp [State.coopStep, State.snapAvailStep, State.available, List.length_pos_iff, pos, byte]

theorem State.coopStep_snapAvail_idle (pos : s.coop.pos = .snapAvail)
    (idle : s.ext.inbound = []) : s.coopStep = .next (s.setPos .snapEnter) := by
  simp [State.coopStep, State.snapAvailStep, State.available, pos, idle]

theorem State.coopStep_snapEnter (pos : s.coop.pos = .snapEnter) :
    s.coopStep = .next (s.setPos .snapWindow) := by
  simp [State.coopStep, pos]

@[simp] theorem State.takePending_none (notPending : s.tickPending = none) : s.takePending = s := by
  simp [State.takePending, notPending]

/-- The window shows a new wrap: the ring is copied as it stands, and the wrap is noted (R151). -/
theorem State.coopStep_window_newWrap (pos : s.coop.pos = .snapWindow)
    (notPending : s.tickPending = none) (wrapped : s.tick.wrapCount ≠ s.coop.wrapSeen) :
    s.coopStep =
      .next ((s.setWrapSeen s.tick.wrapCount).setPos (.send (.telemSnapshot s.tick.ring))) := by
  simp [State.coopStep, State.snapCopyStep, State.wrapPending, pos, notPending, wrapped]

theorem State.coopStep_window_noWrap (pos : s.coop.pos = .snapWindow)
    (notPending : s.tickPending = none) (seen : s.tick.wrapCount = s.coop.wrapSeen) :
    s.coopStep = .next (s.setPos .syncAvail) := by
  simp [State.coopStep, State.snapCopyStep, State.wrapPending, pos, notPending, seen]

/-- A byte pending turns the time-sync away (R155). -/
theorem State.coopStep_syncAvail_byte (pos : s.coop.pos = .syncAvail)
    (byte : s.ext.inbound ≠ []) : s.coopStep = .next (s.setPos .passStart) := by
  simp [State.coopStep, State.syncAvailStep, State.available, List.length_pos_iff, pos, byte]

theorem State.coopStep_syncAvail_idle (pos : s.coop.pos = .syncAvail)
    (idle : s.ext.inbound = []) : s.coopStep = .next (s.setPos .syncClock) := by
  simp [State.coopStep, State.syncAvailStep, State.available, pos, idle]

theorem State.coopStep_syncDue (pos : s.coop.pos = .syncClock)
    (due : s.syncDue s.ext.timeBase = true) :
    s.coopStep = .next (s.setPos (.syncMark s.ext.timeBase)) := by
  simp [State.coopStep, State.syncClockStep, State.nowUs, pos, due]

theorem State.coopStep_notSyncDue (pos : s.coop.pos = .syncClock)
    (notDue : s.syncDue s.ext.timeBase = false) : s.coopStep = .next (s.setPos .passStart) := by
  simp [State.coopStep, State.syncClockStep, State.nowUs, pos, notDue]

theorem State.coopStep_syncMark {t : U32} (pos : s.coop.pos = .syncMark t) :
    s.coopStep = .next ((s.setLastSync t).setPos (.send (.telemTimesync t))) := by
  simp [State.coopStep, State.syncMarkStep, pos]

theorem State.coopStep_send {i : Instr} (pos : s.coop.pos = .send i) :
    s.coopStep = exec i (s.setPos (afterSend i)) := by
  simp [State.coopStep, pos]

/-- A waiting device frame is sent whole, and COOP goes on (R151, R154, R156). -/
theorem State.coopStep_send_deviceFrame {i : Instr} (pos : s.coop.pos = .send i)
    (device : i.direction = .deviceToHost) :
    s.coopStep = .next ((s.setPos (afterSend i)).send (encode s.params i)) := by
  rw [State.coopStep_send pos, exec_deviceFrame device]
  rfl

/-- The interval has passed, in numbers: the distance from the last time-sync is taken modulo `2^32`
(R153). -/
theorem State.syncDue_iff (t : U32) :
    s.syncDue t = true ↔
      s.params.timesyncIntervalUs ≤ (t.toNat + (2 ^ 32 - s.coop.lastSyncUs.toNat)) % 2 ^ 32 := by
  rw [State.syncDue, decide_eq_true_iff, BitVec.toNat_sub, Nat.add_comm]

end

/-- Outside the exclusion window a tick that falls due runs at once (R218). -/
theorem State.outside_tick_unmasked {s : State} (c : U16) (unmasked : s.windowOpen = false) :
    s.outside (.tick c) = s.tickStep c := by
  simp [State.outside, State.tickDue, unmasked]

/-! ## One step -/

/-- Settles O13: at a waiting frame COOP's step is `exec` of it, and `afterSend` is the place R156
gives. -/
theorem stepSendsWaitingFrame : Obligations.StepSendsWaitingFrame := by
  intro s rest i due pos
  exact (step_coopDue due).trans (State.coopStep_send pos)

/-- Settles O18: COOP waits for the body's bytes, and outside the exclusion window nothing masks the
tick. -/
theorem partialBodyHolds : Obligations.PartialBodyHolds := by
  intro s rest pos body short
  refine ⟨fun due => (step_coopDue due).trans (State.coopStep_partialBody pos body short),
    fun c script => ?_⟩
  have unmasked : ({ s with sched.script := rest } : State).windowOpen = false := by
    simp [State.windowOpen, pos]
  rw [step_scripted s _ rest script, State.runEvent_outside _ (.tick c) nofun,
    State.outside_tick_unmasked c unmasked]

/-- Settles O56: the two checks of `Available()` before the telemetry duties. -/
theorem commandPriority : Obligations.CommandPriority := by
  intro s rest due byte
  exact ⟨fun pos => (step_coopDue due).trans (State.coopStep_snapAvail_byte pos byte),
    fun pos => (step_coopDue due).trans (State.coopStep_syncAvail_byte pos byte)⟩

/-! ## COOP alone -/

/-- `s` with COOP at a place of the pass, and `n` steps of COOP's to come before `rest`. -/
def State.coopAt (s : State) (pos : CoopPos) (n : Nat) (rest : List Event) : State :=
  { s with coop.pos := pos, sched.script := List.replicate n .coop ++ rest }

theorem State.coopAt_self {s : State} {pos : CoopPos} {n : Nat} {rest : List Event}
    (place : s.coop.pos = pos) (script : s.sched.script = List.replicate n .coop ++ rest) :
    s.coopAt pos n rest = s := by
  rw [State.coopAt, ← place, ← script]

/-- A run whose first step goes on is that step, then the rest of the run. -/
theorem run_of_step {M : Host.Core} {s t : M.State} {n : Nat} (goes : M.step s = .next t) :
    M.run (n + 1) s = M.run n t := by
  rw [Host.Core.run, goes]

/-- The first of COOP's steps, then the others. -/
theorem run_coopAt {s t : State} {pos : CoopPos} {n : Nat} {rest : List Event}
    (moves : (s.coopAt pos n rest).coopStep = .next t) :
    Host.Core.run core (n + 1) (s.coopAt pos (n + 1) rest) = Host.Core.run core n t := by
  have due : (s.coopAt pos (n + 1) rest).CoopDue (List.replicate n .coop ++ rest) := rfl
  exact run_of_step ((step_coopDue due).trans moves)

/-- Up to the check of `streaming_enabled`, a pass with nothing received only moves (R156). -/
theorem run_passStart {s : State} {n : Nat} {rest : List Event}
    (await : s.coop.pstate = .awaitLen) (idle : s.ext.inbound = []) :
    Host.Core.run core (n + 1) (s.coopAt .passStart (n + 1) rest) =
      Host.Core.run core n (s.coopAt .snapFlag n rest) :=
  run_coopAt (State.coopStep_nothingReceived rfl await idle)

/-- With streaming enabled and nothing received, COOP comes into the exclusion window (R151). -/
theorem run_passStart_to_window {s : State} {n : Nat} {rest : List Event}
    (await : s.coop.pstate = .awaitLen) (idle : s.ext.inbound = [])
    (on : s.coop.streamingEnabled = true) :
    Host.Core.run core (n + 4) (s.coopAt .passStart (n + 4) rest) =
      Host.Core.run core n (s.coopAt .snapWindow n rest) :=
  calc Host.Core.run core (n + 4) (s.coopAt .passStart (n + 4) rest)
    _ = Host.Core.run core (n + 3) (s.coopAt .snapFlag (n + 3) rest) := run_passStart await idle
    _ = Host.Core.run core (n + 2) (s.coopAt .snapAvail (n + 2) rest) :=
      run_coopAt (State.coopStep_streaming rfl on)
    _ = Host.Core.run core (n + 1) (s.coopAt .snapEnter (n + 1) rest) :=
      run_coopAt (State.coopStep_snapAvail_idle rfl idle)
    _ = Host.Core.run core n (s.coopAt .snapWindow n rest) :=
      run_coopAt (State.coopStep_snapEnter rfl)

/-- Settles O53: the pass goes into the exclusion window, out of it with the ring copied when a wrap
is new, and past it all when streaming is disabled. -/
theorem snapshotPass : Obligations.SnapshotPass := by
  intro s rest pos await idle notPending
  refine ⟨fun on wrapped script => ?_, fun on seen script => ?_, fun off script => ?_⟩
  · calc Host.Core.run core 6 s
      _ = Host.Core.run core 6 (s.coopAt .passStart 6 rest) := by rw [State.coopAt_self pos script]
      _ = Host.Core.run core 2 (s.coopAt .snapWindow 2 rest) :=
        run_passStart_to_window await idle on
      _ = Host.Core.run core 1
          ((s.setWrapSeen s.tick.wrapCount).coopAt (.send (.telemSnapshot s.tick.ring)) 1 rest) :=
        run_coopAt (State.coopStep_window_newWrap rfl notPending wrapped)
      _ = .next _ := run_coopAt (State.coopStep_send_deviceFrame rfl rfl)
  · calc Host.Core.run core 5 s
      _ = Host.Core.run core 5 (s.coopAt .passStart 5 rest) := by rw [State.coopAt_self pos script]
      _ = Host.Core.run core 1 (s.coopAt .snapWindow 1 rest) :=
        run_passStart_to_window await idle on
      _ = .next _ := run_coopAt (State.coopStep_window_noWrap rfl notPending seen)
  · calc Host.Core.run core 2 s
      _ = Host.Core.run core 2 (s.coopAt .passStart 2 rest) := by rw [State.coopAt_self pos script]
      _ = Host.Core.run core 1 (s.coopAt .snapFlag 1 rest) := run_passStart await idle
      _ = .next _ := run_coopAt (State.coopStep_notStreaming rfl off)

/-- A time-sync pass with nothing received reads the counter (R154). -/
theorem run_syncAvail {s : State} {n : Nat} {rest : List Event}
    (pos : s.coop.pos = .syncAvail) (idle : s.ext.inbound = [])
    (script : s.sched.script = List.replicate (n + 1) .coop ++ rest) :
    Host.Core.run core (n + 1) s = Host.Core.run core n (s.coopAt .syncClock n rest) :=
  calc Host.Core.run core (n + 1) s
    _ = Host.Core.run core (n + 1) (s.coopAt .syncAvail (n + 1) rest) := by
      rw [State.coopAt_self pos script]
    _ = Host.Core.run core n (s.coopAt .syncClock n rest) :=
      run_coopAt (State.coopStep_syncAvail_idle rfl idle)

/-- Settles O55: the counter decides; a time-sync that is due is noted, then sent. -/
theorem timeSyncPass : Obligations.TimeSyncPass := by
  intro s rest pos idle
  refine ⟨fun passed script => ?_, fun early script => ?_⟩
  · have due : s.syncDue s.ext.timeBase = true := (State.syncDue_iff _).mpr passed
    calc Host.Core.run core 4 s
      _ = Host.Core.run core 3 (s.coopAt .syncClock 3 rest) := run_syncAvail pos idle script
      _ = Host.Core.run core 2 (s.coopAt (.syncMark s.ext.timeBase) 2 rest) :=
        run_coopAt (State.coopStep_syncDue rfl due)
      _ = Host.Core.run core 1
          ((s.setLastSync s.ext.timeBase).coopAt (.send (.telemTimesync s.ext.timeBase)) 1 rest) :=
        run_coopAt (State.coopStep_syncMark rfl)
      _ = .next _ := run_coopAt (State.coopStep_send_deviceFrame rfl rfl)
  · have notDue : s.syncDue s.ext.timeBase = false :=
      Bool.eq_false_iff.mpr fun due => early.not_ge ((State.syncDue_iff _).mp due)
    calc Host.Core.run core 2 s
      _ = Host.Core.run core 1 (s.coopAt .syncClock 1 rest) := run_syncAvail pos idle script
      _ = .next _ := run_coopAt (State.coopStep_notSyncDue rfl notDue)

end Sys2Proof.Machine
end

section
/-! What COOP's step makes of the bytes received: a length byte, a command, or a body that its
checksum or its opcode refuses (R171 to R174, R193). -/

namespace Sys2Proof.Machine

/-! ## A length byte (R82, R171) -/

theorem lengthValid_iff {p : Config.Params} {b : Byte} :
    lengthValid p b = true ↔ 1 ≤ b.toNat ∧ b.toNat ≤ p.maxFrame - 2 := by
  simp [lengthValid]

theorem State.coopStep_lengthByte {s : State} {b : Byte} {more : List Byte}
    (pos : s.coop.pos = .passStart) (await : s.coop.pstate = .awaitLen)
    (received : s.ext.inbound = b :: more) : s.coopStep = .next s.receiveLength := by
  simp [State.coopStep, State.loopPass, State.available, pos, await, received]

/-- The byte leaves the inbound sequence, and a valid one starts a body (R171). -/
theorem State.receiveLength_cons {s : State} {b : Byte} {more : List Byte}
    (received : s.ext.inbound = b :: more) :
    s.receiveLength =
      if 1 ≤ b.toNat ∧ b.toNat ≤ s.params.maxFrame - 2 then
        { s with ext.inbound := more, coop.plen := b, coop.pstate := .awaitBody }
      else { s with ext.inbound := more } := by
  have consumed : s.recvBytes 1 = { s with ext.inbound := more } := by
    simp [State.recvBytes, received]
  simp only [State.receiveLength, received, List.headD_cons, lengthValid_iff, consumed]
  rfl

/-- Settles O17: COOP's step receives the byte, which the test of R82 keeps or discards. -/
theorem lengthByteReceived : Obligations.LengthByteReceived := by
  intro s rest b more due pos await received
  calc step s
    _ = ({ s with sched.script := rest } : State).coopStep := step_coopDue due
    _ = .next ({ s with sched.script := rest } : State).receiveLength :=
      State.coopStep_lengthByte pos await received
    _ = .next _ := congrArg Host.Outcome.next (State.receiveLength_cons received)
    _ = _ := apply_ite Host.Outcome.next _ _ _

/-! ## A body (R172 to R174) -/

theorem State.bodyInstr_of_ok {s : State} {i : Instr}
    (decoded : decodeBody s.bodyBytes s.bodyChecksum = .ok i) : s.bodyInstr = i := by
  rw [State.bodyInstr, decoded]

/-- Settles O12: the instruction of a body that decodes is what it decodes to. -/
theorem stepRunsReceivedCommand : Obligations.StepRunsReceivedCommand := by
  intro s rest i due pos body complete decoded
  rw [step_completeBody due pos body complete, State.bodyInstr_of_ok decoded]
  rfl

/-- A body that is refused: the frame is consumed, the error is sent, and nothing else changes
(R173, R193, R215). -/
theorem step_refusedBody {s : State} {rest : List Event} {e : CommandError} {op : Byte}
    (due : s.CoopDue rest) (pos : s.coop.pos = .passStart) (body : s.coop.pstate = .awaitBody)
    (complete : s.coop.plen.toNat + 1 ≤ s.ext.inbound.length)
    (refused : s.bodyInstr = .respError op (errorCode e)) :
    step s =
      .next
        { s with
          sched.script := rest
          coop.pstate := .awaitLen
          ext.inbound := s.ext.inbound.drop (s.coop.plen.toNat + 1)
          ext.outbound :=
            s.ext.outbound ++ [0x03, 0xA1, op, errorCode e, 0xA1 + op + errorCode e] } := by
  have sum : checksum8 [0xA1, op, errorCode e] = 0xA1 + op + errorCode e := by
    simp [checksum8_cons, BitVec.add_assoc]
  rw [step_completeBody due pos body complete, refused]
  refine congrArg Host.Outcome.next ((State.raise_bytes _ e op).trans ?_)
  rw [sum]
  rfl

/-- Settles O14: the checksum is looked at before anything else, so the reply is InvalidPayload
whatever the body says. -/
theorem checksumMismatchReply : Obligations.ChecksumMismatchReply := by
  intro s rest due pos body complete mismatch
  refine step_refusedBody (e := .invalidPayload) due pos body complete ?_
  rw [State.bodyInstr, decodeBody, if_pos mismatch]
  rfl

/-- Settles O15: the opcode is looked up before the payload is read. -/
theorem unknownOpcodeReply : Obligations.UnknownOpcodeReply := by
  intro s rest due pos body complete check unassigned
  refine step_refusedBody (e := .unknownCommand) due pos body complete ?_
  rw [State.bodyInstr, check, decodeBody_checksum, decodeCommand, opcodeOf_eq_none unassigned]
  rfl

end Sys2Proof.Machine
end

section
/-! The value checks of the command handlers, and what a handler does by their outcome (R180 to
R183, R189, R222). -/

namespace Sys2Proof.Machine

/-! ## The checks -/

theorem freqLegal_iff {p : Config.Params} {f : U32} :
    freqLegal p f = true ↔ p.pwmFreqMin ≤ f.toNat ∧ f.toNat ≤ p.pwmFreqMax := by
  simp [freqLegal]

theorem dutyLegal_iff {c : Config.ConfigRegs} {d : U16} :
    dutyLegal c d = true ↔ d.toNat ≤ maxDuty c := by
  simp [dutyLegal]

/-- `code` is the wire byte of the shape `sh` (R94). -/
def ShapeCode (code : Byte) (sh : Shape) : Prop :=
  code = 0x00 ∧ sh = .step ∨ code = 0x01 ∧ sh = .linear

theorem ShapeCode.shapeOf_eq {code : Byte} {sh : Shape} (h : ShapeCode code sh) :
    shapeOf code = some sh := by
  rcases h with ⟨rfl, rfl⟩ | ⟨rfl, rfl⟩ <;> rfl

theorem exists_shapeCode {code : Byte} (h : code.toNat ≤ 1) : ∃ sh, ShapeCode code sh := by
  rcases Nat.le_one_iff_eq_zero_or_eq_one.mp h with zero | one
  · exact ⟨.step, .inl ⟨BitVec.eq_of_toNat_eq zero, rfl⟩⟩
  · exact ⟨.linear, .inr ⟨BitVec.eq_of_toNat_eq one, rfl⟩⟩

theorem shapeOf_eq_none {code : Byte} (h : 1 < code.toNat) : shapeOf code = none := by
  have notStep : code ≠ 0x00 := by rintro rfl; cases h
  have notLinear : code ≠ 0x01 := by rintro rfl; exact absurd h (by decide)
  rw [shapeOf, if_neg notStep, if_neg notLinear]

/-- The 5-byte form has the default duration (R93). -/
theorem segDuration_eq_getD (p : Config.Params) (dur : Option U32) :
    segDuration p dur = dur.getD p.segDefaultDurationUs := by
  cases dur <;> rfl

/-! ## The handlers of checked operands, by the outcome of the check -/

section

variable {s : State}

theorem exec_setPwmFreq_legal {f : U32} (legal : freqLegal s.params f = true) :
    exec (.setPwmFreq f) s = .next (applyPwmFreq f s) :=
  congrArg Host.Outcome.next (if_pos legal)

theorem exec_setPwmFreq_refused {f : U32}
    (outside : f.toNat < s.params.pwmFreqMin ∨ s.params.pwmFreqMax < f.toNat) :
    exec (.setPwmFreq f) s = .next (s.raise .invalidPayload (opcodeByte .setPwmFreq)) :=
  congrArg Host.Outcome.next (if_neg (by rw [freqLegal_iff]; omega))

theorem checkedDuty_legal {d : U16} (legal : dutyLegal s.cfg d = true) (o : Opcode)
    (accepted : State) : checkedDuty o d accepted s = accepted :=
  if_pos legal

theorem checkedDuty_refused {d : U16} (above : maxDuty s.cfg < d.toNat) (o : Opcode)
    (accepted : State) :
    checkedDuty o d accepted s = s.raise .invalidDuty (opcodeByte o) :=
  if_neg (by rw [dutyLegal_iff]; omega)

theorem exec_setDuty_legal {d : U16} (legal : dutyLegal s.cfg d = true) :
    exec (.setDuty d) s = .next ((publishDuty d s).yield.ack .setDuty) :=
  congrArg Host.Outcome.next (checkedDuty_legal legal _ _)

/-- The two unacknowledged setters do the same (R182, R183). -/
theorem exec_setDutyUnacked_legal {d : U16} (legal : dutyLegal s.cfg d = true) :
    exec (.setDutyNoack d) s = .next (publishDuty d s) ∧
    exec (.setDutyFast d) s = .next (publishDuty d s) :=
  ⟨congrArg Host.Outcome.next (checkedDuty_legal legal _ _),
    congrArg Host.Outcome.next (checkedDuty_legal legal _ _)⟩

theorem exec_queueTrajSeg_legal {a b : U16} {code : Byte} {sh : Shape} {dur : Option U32}
    (shape : ShapeCode code sh) (legalStart : dutyLegal s.cfg a = true)
    (legalEnd : dutyLegal s.cfg b = true) :
    exec (.queueTrajSeg a b code dur) s =
      .next (acceptSegment ⟨a, b, dur.getD s.params.segDefaultDurationUs, sh⟩ s) := by
  show execQueueTrajSeg a b code dur s = _
  simp [execQueueTrajSeg, shape.shapeOf_eq, legalStart, legalEnd, segDuration_eq_getD]

theorem exec_queueTrajSeg_badShape {code : Byte} (illegal : 1 < code.toNat) (a b : U16)
    (dur : Option U32) :
    exec (.queueTrajSeg a b code dur) s =
      .next (s.raise .invalidPayload (opcodeByte .queueTrajSeg)) := by
  show execQueueTrajSeg a b code dur s = _
  simp [execQueueTrajSeg, shapeOf_eq_none illegal]

theorem exec_queueTrajSeg_badDuty {a b : U16} {code : Byte} (shape : code.toNat ≤ 1)
    (above : maxDuty s.cfg < a.toNat ∨ maxDuty s.cfg < b.toNat) (dur : Option U32) :
    exec (.queueTrajSeg a b code dur) s =
      .next (s.raise .invalidDuty (opcodeByte .queueTrajSeg)) := by
  obtain ⟨sh, legal⟩ := exists_shapeCode shape
  have illegal : ¬ (dutyLegal s.cfg a = true ∧ dutyLegal s.cfg b = true) := by
    rw [dutyLegal_iff, dutyLegal_iff]; omega
  show execQueueTrajSeg a b code dur s = _
  simp [execQueueTrajSeg, legal.shapeOf_eq, illegal]

end

/-- Settles O42: each failed check raises its error, whose bytes are `raise_bytes`. -/
theorem valueChecksRefuse : Obligations.ValueChecksRefuse := by
  intro s
  refine ⟨fun f outside => exec_setPwmFreq_refused outside, fun d above => ?_,
    fun a b code dur => ⟨fun illegal => exec_queueTrajSeg_badShape illegal a b dur,
      fun shape above => exec_queueTrajSeg_badDuty shape above dur⟩⟩
  have refused (o : Opcode) (accepted : State) := checkedDuty_refused above o accepted
  exact ⟨congrArg Host.Outcome.next (refused .setDuty _),
    congrArg Host.Outcome.next (refused .setDutyNoack _),
    congrArg Host.Outcome.next (refused .setDutyFast _)⟩

end Sys2Proof.Machine
end

section
/-! The commands with nothing falling inside their handlers: what each writes, what it sends, and
nothing else (R175 to R194). -/

namespace Sys2Proof.Machine

/-! ## The operations that have a boundary inside, with nothing falling there -/

/-- `s` with the settings record in the store if `SEG_FALLTHROUGH_SAVE` is set (R189, C10). -/
def State.savedIfSet (s : State) : State :=
  { s with
    ext.store :=
      if s.params.segFallthroughSave then settingsRecord s.params s.cfg else s.ext.store }

section

variable {s : State} (quiet : s.Quiet)
include quiet

theorem publishDuty_quiet (d : U16) : publishDuty d s = (s.setDutyCmd d).bumpDutyGen := by
  rw [publishDuty, State.yield_quiet (s.setDutyCmd d) quiet]

theorem fallthroughSave_quiet : fallthroughSave s = s.savedIfSet := by
  rw [fallthroughSave, State.yield_quiet (s.nvStore (settingsRecord s.params s.cfg)) quiet,
    State.savedIfSet]
  cases s.params.segFallthroughSave <;> rfl

theorem enqueue_full_quiet (seg : Segment) (full : s.queueFull = true) : enqueue seg s = s := by
  rw [enqueue_full seg (by rwa [s.yield_quiet quiet]), s.yield_quiet quiet]

end

/-- What follows Enqueue when nothing falls there: the record is stored or not, and the ACK is
sent. -/
theorem acceptSegment_of_enqueue {s t : State} {seg : Segment} (enqueued : enqueue seg s = t)
    (quiet : t.Quiet) : acceptSegment seg s = t.savedIfSet.ack .queueTrajSeg := by
  rw [acceptSegment, enqueued, t.yield_quiet quiet, fallthroughSave_quiet quiet]

/-! ## Queries (R175 to R177) -/

/-- Settles O37: a query is its one `Send`, and GET_DUTY has read the duty before the boundary. -/
theorem queriesReply : Obligations.QueriesReply := by
  intro s
  refine ⟨rfl, ?_, fun quiet => ?_, ?_⟩
  · rintro _ rfl
    rw [List.append_assoc, List.append_assoc]
    rfl
  · have reply : exec .getDuty s = .next (s.sendFrame (.respDuty s.tick.dutyOut)) := by
      show execGetDuty s = _
      rw [execGetDuty, s.yield_quiet quiet]
    rw [reply, List.append_assoc, List.append_assoc]
    rfl
  · obtain ⟨n, unread⟩ := s.yield_outbound
    exact ⟨_, n, rfl, s.yield_coop, s.yield_cfg, by simp [unread]⟩

/-! ## Configuration setters (R178 to R180) -/

/-- Settles O38: each handler's writes, with its boundaries left out. -/
theorem settersExactly : Obligations.SettersExactly := by
  intro s pin f quiet
  refine ⟨?_, ?_, fun low high => ?_⟩
  · show execSetOutputPin pin s =
      .next (((s.setOutPin pin).pwmConfigure pin s.cfg.pwmFreq s.cfg.pwmRes).ack .setOutputPin)
    simp [execSetOutputPin, quiet]
  · show execSetSensePin pin s = .next ((s.setSensePin pin).ack .setSensePin)
    simp [execSetSensePin, quiet]
  · have applied : applyPwmFreq f s =
        ((s.setPwmFreq f).pwmConfigure s.cfg.outPin f s.cfg.pwmRes).ack .setPwmFreq := by
      simp [applyPwmFreq, quiet]
    rw [exec_setPwmFreq_legal (freqLegal_iff.mpr ⟨low, high⟩), applied]
    rfl

/-! ## Duty commands (R181 to R184) -/

/-- STOP_OUTPUT with nothing falling inside it publishes duty 0 with automation disabled (R184). -/
theorem exec_stopOutput_quiet {s : State} (quiet : s.Quiet) :
    exec .stopOutput s =
      .next ((((s.setAutomation false).setDutyCmd 0).bumpDutyGen).ack .stopOutput) := by
  have off : (s.setAutomation false).Quiet := quiet
  have published : ((s.setAutomation false).setDutyCmd 0).bumpDutyGen.Quiet := quiet
  show execStopOutput s = _
  rw [execStopOutput, State.yield_quiet _ off, publishDuty_quiet off, State.yield_quiet _ published]

/-- Settles O40: a legal duty is published, and only SET_DUTY and STOP_OUTPUT acknowledge. -/
theorem dutyCommandsExactly : Obligations.DutyCommandsExactly := by
  intro s d quiet below
  have legal : dutyLegal s.cfg d = true := dutyLegal_iff.mpr below
  have published := publishDuty_quiet quiet d
  obtain ⟨noack, fast⟩ := exec_setDutyUnacked_legal legal
  refine ⟨?_, ?_, ?_, exec_stopOutput_quiet quiet⟩
  · rw [exec_setDuty_legal legal, published, State.yield_quiet _ (by simpa using quiet)]
    rfl
  · rw [noack, published]
    rfl
  · rw [fast, published]
    rfl

/-! ## Mode toggles (R185 to R188) -/

/-- Settles O43: each toggle's writes, with its boundaries left out. -/
theorem togglesExactly : Obligations.TogglesExactly := by
  intro s quiet
  refine ⟨?_, ?_, ?_, ?_⟩
  · show execStartStream s =
      .next (((s.setWrapSeen s.tick.wrapCount).setStreaming true).ack .startStream)
    simp [execStartStream, quiet]
  · show execStopStream s = .next ((s.setStreaming false).ack .stopStream)
    simp [execStopStream, quiet]
  · show execStartAutomation s = .next ((s.setAutomation true).bumpAutoGen.ack .startAutomation)
    simp [execStartAutomation, quiet]
  · show execStopAutomation s = .next ((s.setAutomation false).ack .stopAutomation)
    simp [execStopAutomation, quiet]

/-! ## QUEUE_TRAJ_SEG (R189) -/

/-- Settles O45: the segment is enqueued or dropped, and what follows is the same for both. -/
theorem segmentAcceptedExactly : Obligations.SegmentAcceptedExactly := by
  intro s a b code sh dur quiet shape belowStart belowEnd
  rw [exec_queueTrajSeg_legal shape (dutyLegal_iff.mpr belowStart) (dutyLegal_iff.mpr belowEnd)]
  cases full : s.queueFull with
  | true =>
    rw [acceptSegment_of_enqueue (enqueue_full_quiet quiet _ full) quiet]
    rfl
  | false =>
    rw [acceptSegment_of_enqueue (enqueue_room_quiet _ quiet full) quiet]
    rfl

/-! ## Settings and reset (R190 to R192) -/

/-- Settles O47: the record is stored and the ACK sent before the reset runs (R245). -/
theorem settingsCommandsExactly : Obligations.SettingsCommandsExactly := by
  rintro s _ quiet rfl
  refine ⟨?_, ?_, ?_⟩
  · show execSaveSettings s = .next ((saveSettings s).ack .saveSettings)
    rw [execSaveSettings, State.yield_quiet (saveSettings s) quiet]
  · show execSoftReset s = .next (s.ack .softReset).deviceReset
    rw [execSoftReset, State.yield_quiet (s.ack .softReset) quiet]
  · show execSaveAndReset s = .next ((saveSettings s).ack .saveAndReset).deviceReset
    rw [execSaveAndReset, State.yield_quiet (saveSettings s) quiet,
      State.yield_quiet ((saveSettings s).ack .saveAndReset) quiet]

/-- Settles O49: reset loads the record just stored, and it is valid. -/
theorem saveAndResetKeepsConfiguration : Obligations.SaveAndResetKeepsConfiguration := by
  intro s valid quiet
  obtain ⟨-, -, run⟩ := settingsCommandsExactly s (settingsRecord s.params s.cfg) quiet rfl
  refine ⟨_, run, ?_, rfl⟩
  rw [State.deviceReset_cfg, loadConfig_settingsRecord, if_pos valid]

/-! ## The tick after STOP_OUTPUT (R184, R251) -/

/-- Settles O59: the tick finds automation disabled and a generation it has not seen, so it drives
the published 0, and pops nothing. -/
theorem stopOutputDrivesZero : Obligations.StopOutputDrivesZero := by
  intro s t c quiet fresh run
  rw [exec_stopOutput_quiet quiet, Host.Outcome.next.injEq] at run
  have coop : t.coop = { s.coop with
      automationEnabled := false, dutyCmd := 0, dutyGen := s.coop.dutyGen + 1 } := by
    rw [← run]; rfl
  have tick : t.tick = s.tick := by rw [← run]; rfl
  obtain ⟨tickCoop, -, -, manual, -⟩ := tickChoosesDuty t c
  have chosen := manual (.inl (by rw [coop]))
  have zero : (t.tickStep c).tick.dutyOut = 0 := by
    rw [chosen, coop, tick]
    exact if_neg fresh
  refine ⟨zero, by rw [chosen], ?_, State.liveSegments_congr ?_ ?_ ?_ ?_⟩
  · obtain ⟨drives, -⟩ := tickDrivesAndSamples t c
    rw [drives, zero, ← run]
    rfl
  · rw [t.tickStep_params, ← run]
    rfl
  · rw [tickCoop, coop]
  · rw [tickCoop, coop]
  · rw [chosen, tick]

end Sys2Proof.Machine
end

section
/-! The one reply of each command (R194), read off what the commands do with nothing falling inside
them. -/

namespace Sys2Proof.Machine

/-- Running `i` in `s` sends the reply that R194 gives it, and nothing else. -/
def Replies (s : State) (i : Instr) : Prop :=
  ∃ t, exec i s = .next t ∧
    t.ext.outbound = s.ext.outbound ++ ((replyTo s i).map (encode s.params)).getD []

section

variable {s : State} (quiet : s.Quiet)
include quiet

theorem setPwmFreq_replies (f : U32) : Replies s (.setPwmFreq f) := by
  by_cases outside : f.toNat < s.params.pwmFreqMin ∨ s.params.pwmFreqMax < f.toNat
  · obtain ⟨refused, -⟩ := valueChecksRefuse s
    exact ⟨_, refused f outside, by rw [replyTo, if_pos outside]; rfl⟩
  · obtain ⟨-, -, accepted⟩ := settersExactly s 0 f quiet
    exact ⟨_, accepted (by omega) (by omega), by rw [replyTo, if_neg outside]; rfl⟩

/-- The three duty setters (R181 to R183): all refuse alike, and one acknowledges. -/
theorem dutySetters_reply (d : U16) :
    Replies s (.setDuty d) ∧ Replies s (.setDutyNoack d) ∧ Replies s (.setDutyFast d) := by
  by_cases above : maxDuty s.cfg < d.toNat
  · obtain ⟨-, refused, -⟩ := valueChecksRefuse s
    obtain ⟨acked, noack, fast⟩ := refused d above
    exact ⟨⟨_, acked, by rw [replyTo, if_pos above]; rfl⟩,
      ⟨_, noack, by rw [replyTo, if_pos above]; rfl⟩,
      ⟨_, fast, by rw [replyTo, if_pos above]; rfl⟩⟩
  · obtain ⟨acked, noack, fast, -⟩ := dutyCommandsExactly s d quiet (Nat.le_of_not_lt above)
    exact ⟨⟨_, acked, by rw [replyTo, if_neg above]; rfl⟩,
      ⟨_, noack, by rw [replyTo, if_neg above]; exact (List.append_nil _).symm⟩,
      ⟨_, fast, by rw [replyTo, if_neg above]; exact (List.append_nil _).symm⟩⟩

/-- QUEUE_TRAJ_SEG: the shape is checked before the duties (R189, R222). -/
theorem queueTrajSeg_replies (a b : U16) (code : Byte) (dur : Option U32) :
    Replies s (.queueTrajSeg a b code dur) := by
  obtain ⟨-, -, refused⟩ := valueChecksRefuse s
  obtain ⟨badShape, badDuty⟩ := refused a b code dur
  by_cases illegal : 1 < code.toNat
  · exact ⟨_, badShape illegal, by rw [replyTo, if_pos illegal]; rfl⟩
  by_cases above : maxDuty s.cfg < a.toNat ∨ maxDuty s.cfg < b.toNat
  · exact ⟨_, badDuty (Nat.le_of_not_lt illegal) above,
      by rw [replyTo, if_neg illegal, if_pos above]; rfl⟩
  · obtain ⟨sh, shape⟩ := exists_shapeCode (Nat.le_of_not_lt illegal)
    obtain ⟨belowStart, belowEnd⟩ := not_or.mp above
    exact ⟨_, segmentAcceptedExactly s a b code sh dur quiet shape (Nat.le_of_not_lt belowStart)
      (Nat.le_of_not_lt belowEnd), by rw [replyTo, if_neg illegal, if_neg above]; rfl⟩

end

/-- Settles O52: commands without operands and the pin setters have one outcome, the others are
above. -/
theorem replyPolicy : Obligations.ReplyPolicy := by
  intro s i command quiet
  obtain ⟨startStream, stopStream, startAutomation, stopAutomation⟩ := togglesExactly s quiet
  obtain ⟨save, reset, saveAndReset⟩ :=
    settingsCommandsExactly s (settingsRecord s.params s.cfg) quiet rfl
  cases i with
  | ping | getStatus => exact ⟨_, rfl, rfl⟩
  | getDuty => exact ⟨_, rfl, by simp [quiet, replyTo]⟩
  | setOutputPin pin =>
    obtain ⟨run, -⟩ := settersExactly s pin 0 quiet
    exact ⟨_, run, rfl⟩
  | setSensePin pin =>
    obtain ⟨-, run, -⟩ := settersExactly s pin 0 quiet
    exact ⟨_, run, rfl⟩
  | setPwmFreq f => exact setPwmFreq_replies quiet f
  | setDuty d =>
    obtain ⟨replies, -, -⟩ := dutySetters_reply quiet d
    exact replies
  | setDutyNoack d =>
    obtain ⟨-, replies, -⟩ := dutySetters_reply quiet d
    exact replies
  | setDutyFast d =>
    obtain ⟨-, -, replies⟩ := dutySetters_reply quiet d
    exact replies
  | stopOutput => exact ⟨_, exec_stopOutput_quiet quiet, rfl⟩
  | startStream => exact ⟨_, startStream, rfl⟩
  | stopStream => exact ⟨_, stopStream, rfl⟩
  | startAutomation => exact ⟨_, startAutomation, rfl⟩
  | stopAutomation => exact ⟨_, stopAutomation, rfl⟩
  | queueTrajSeg a b code dur => exact queueTrajSeg_replies quiet a b code dur
  | saveSettings => exact ⟨_, save, rfl⟩
  | softReset => exact ⟨_, reset, rfl⟩
  | saveAndReset => exact ⟨_, saveAndReset, rfl⟩
  | respAck | respError | respStatus | respDuty | telemSnapshot | telemTimesync => cases command

end Sys2Proof.Machine
end

section
/-! The commands with whatever falls inside their handlers (R67): what stays COOP's, and what HOST
and ENV may have done meanwhile. -/

namespace Sys2Proof.Machine

/-! ## Parts of a handler that say nothing -/

/-- From `s` to `t` the block sends no byte and stores nothing: HOST has read some of the outbound
bytes, the store is as it was or as ENV has set it, and a part of the script is left (R50, R234). -/
structure Silent (s t : State) : Prop where
  outbound : ∃ n, t.ext.outbound = s.ext.outbound.drop n
  store : t.ext.store = s.ext.store ∨ .envStore t.ext.store ∈ s.sched.script
  script : t.sched.script <:+ s.sched.script

theorem Silent.refl (s : State) : Silent s s := ⟨⟨0, rfl⟩, .inl rfl, List.suffix_rfl⟩

theorem Silent.trans {s t u : State} (h : Silent s t) (k : Silent t u) : Silent s u := by
  obtain ⟨n, read⟩ := h.outbound
  obtain ⟨m, read'⟩ := k.outbound
  refine ⟨⟨n + m, by rw [read', read, List.drop_drop]⟩, ?_, k.script.trans h.script⟩
  rcases k.store with kept | set
  · rw [kept]; exact h.store
  · exact .inr (h.script.subset set)

/-- Whatever falls between two COOP steps. -/
theorem Silent.yield {s t : State} (h : Silent s t) : Silent s t.yield :=
  h.trans ⟨t.yield_outbound, t.yield_store, t.yield_suffix⟩

/-- Writing registers, or calling a PWM primitive. -/
theorem Silent.write {s t u : State} (h : Silent s t)
    (ext : u.ext = { t.ext with trace := u.ext.trace } := by rfl)
    (sched : u.sched = t.sched := by rfl) : Silent s u := by
  refine h.trans ⟨⟨0, ?_⟩, .inl ?_, by rw [sched]⟩ <;> rw [ext]
  rfl

theorem Silent.publish {s t : State} (h : Silent s t) (d : U16) :
    Silent s (publishDuty d t) :=
  (h.write (u := t.setDutyCmd d)).yield.write

/-- The ACK at the end of a handler stands behind what HOST has not read (R50, R96). -/
theorem Silent.ack {s t : State} (h : Silent s t) (o : Opcode) :
    ∃ n, (t.ack o).ext.outbound =
      s.ext.outbound.drop n ++ [0x02, 0xA0, opcodeByte o, checksum8 [0xA0, opcodeByte o]] := by
  obtain ⟨n, read⟩ := h.outbound
  exact ⟨n, congrArg (· ++ _) read⟩

theorem State.outside_trace (s : State) (e : Event) : s.ext.trace <+: (s.outside e).ext.trace := by
  cases e with
  | tick c =>
    simp only [State.outside, State.tickDue]
    split
    · exact List.prefix_rfl
    · rw [s.tickStep_frame]
      exact List.prefix_append _ _
  | coop | host | hostRead | time | envStore => exact List.prefix_rfl

theorem State.runUntilCoop_trace (script : List Event) (s : State) :
    s.ext.trace <+: (s.runUntilCoop script).ext.trace := by
  induction script generalizing s with
  | nil => exact List.prefix_rfl
  | cons e rest ih =>
    cases e <;> simp only [State.runUntilCoop]
    case coop => exact List.prefix_rfl
    all_goals exact (s.outside_trace _).trans (ih _)

/-- What falls inside a handler only adds calls to the trace (R230). -/
theorem State.yield_trace (s : State) : s.ext.trace <+: s.yield.ext.trace :=
  s.runUntilCoop_trace _

/-- A call of PwmConfigure is in the trace after what falls behind it. -/
theorem pwmConfigure_mem_yield_trace (s : State) (pin : Byte) (f : U32) (r : Byte) :
    .pwmConfigure pin f r ∈ (s.pwmConfigure pin f r).yield.ext.trace :=
  (State.yield_trace _).subset (by simp)

/-! ## Configuration setters (R178 to R180) -/

/-- Settles O39: COOP's writes survive the boundaries, and the ACK is the handler's one `Send`. -/
theorem settersUnderInterleaving : Obligations.SettersUnderInterleaving := by
  intro s pin f
  have start := Silent.refl s
  refine ⟨?_, ?_, fun legal => ?_⟩
  · have silent := ((start.write (u := s.setOutPin pin)).yield.write
      (u := (s.setOutPin pin).yield.pwmConfigure pin s.cfg.pwmFreq s.cfg.pwmRes)).yield
    have run : exec (.setOutputPin pin) s = .next
        (((s.setOutPin pin).yield.pwmConfigure pin s.cfg.pwmFreq s.cfg.pwmRes).yield.ack
          .setOutputPin) := by
      show execSetOutputPin pin s = _
      simp [execSetOutputPin]
    obtain ⟨n, sent⟩ := silent.ack .setOutputPin
    exact ⟨_, n, run, by simp, by simp, by simp, pwmConfigure_mem_yield_trace _ _ _ _, sent⟩
  · obtain ⟨n, sent⟩ := (start.write (u := s.setSensePin pin)).yield.ack .setSensePin
    exact ⟨_, n, rfl, by simp, by simp, by simp, sent⟩
  · have silent := ((start.write (u := s.setPwmFreq f)).yield.write
      (u := (s.setPwmFreq f).yield.pwmConfigure s.cfg.outPin f s.cfg.pwmRes)).yield
    have run : applyPwmFreq f s =
        ((s.setPwmFreq f).yield.pwmConfigure s.cfg.outPin f s.cfg.pwmRes).yield.ack
          .setPwmFreq := by
      simp [applyPwmFreq]
    obtain ⟨n, sent⟩ := silent.ack .setPwmFreq
    exact ⟨_, n, (exec_setPwmFreq_legal legal).trans (congrArg Host.Outcome.next run), by simp,
      by simp, by simp, pwmConfigure_mem_yield_trace _ _ _ _, sent⟩

/-! ## Duty commands (R181 to R184) -/

@[simp] theorem publishDuty_cfg (d : U16) (s : State) : (publishDuty d s).cfg = s.cfg := by
  simp [publishDuty]

/-- Publishing writes the two duty registers and nothing else of COOP's (R68). -/
@[simp] theorem publishDuty_coop (d : U16) (s : State) :
    (publishDuty d s).coop = { s.coop with dutyCmd := d, dutyGen := s.coop.dutyGen + 1 } := by
  simp [publishDuty]

/-- Settles O41: the duty is published whatever falls between its two writes, and the ACK, where
there is one, follows. -/
theorem dutyCommandsUnderInterleaving : Obligations.DutyCommandsUnderInterleaving := by
  intro s d legal
  have published := (Silent.refl s).publish d
  obtain ⟨noack, fast⟩ := exec_setDutyUnacked_legal legal
  refine ⟨?_, ?_, ?_, ?_⟩
  · obtain ⟨n, sent⟩ := published.yield.ack .setDuty
    exact ⟨_, n, exec_setDuty_legal legal, by simp, by simp, sent⟩
  · obtain ⟨n, read⟩ := published.outbound
    exact ⟨_, n, noack, by simp, by simp, read⟩
  · obtain ⟨n, read⟩ := published.outbound
    exact ⟨_, n, fast, by simp, by simp, read⟩
  · have off := ((Silent.refl s).write (u := s.setAutomation false)).yield
    obtain ⟨n, sent⟩ := (off.publish 0).yield.ack .stopOutput
    exact ⟨_, n, rfl, by simp, by simp, sent⟩

/-! ## Mode toggles (R185 to R188) -/

/-- Settles O44: `wrap_count` is read before the first boundary, and COOP's writes survive them. -/
theorem togglesUnderInterleaving : Obligations.TogglesUnderInterleaving := by
  intro s
  have start := Silent.refl s
  refine ⟨?_, ?_, ?_, ?_⟩
  · have seen := (start.write (u := s.setWrapSeen s.tick.wrapCount)).yield
    obtain ⟨n, sent⟩ := (seen.write (u := State.setStreaming _ true)).yield.ack .startStream
    exact ⟨_, n, rfl, by simp, by simp, sent⟩
  · obtain ⟨n, sent⟩ := (start.write (u := s.setStreaming false)).yield.ack .stopStream
    exact ⟨_, n, rfl, by simp, by simp, sent⟩
  · have on := (start.write (u := s.setAutomation true)).yield
    obtain ⟨n, sent⟩ := (on.write (u := State.bumpAutoGen _)).yield.ack .startAutomation
    exact ⟨_, n, rfl, by simp, by simp, sent⟩
  · obtain ⟨n, sent⟩ := (start.write (u := s.setAutomation false)).yield.ack .stopAutomation
    exact ⟨_, n, rfl, by simp, by simp, sent⟩

/-! ## Commands that store the settings (R189, R190) -/

/-- What the environment may do meanwhile it may also do to a store just written. -/
theorem Silent.nvStore {s t : State} (h : Silent s t) (bytes : List Byte) :
    Silent (s.nvStore bytes) (t.nvStore bytes) :=
  ⟨h.outbound, .inl rfl, h.script⟩

/-- The store is written with the record of the live configuration, which nothing has changed
meanwhile. -/
theorem Silent.save {s t : State} (h : Silent s t) (params : t.params = s.params)
    (cfg : t.cfg = s.cfg) : Silent s.savedIfSet (fallthroughSave t) := by
  rw [fallthroughSave, State.savedIfSet, params, cfg]
  cases s.params.segFallthroughSave with
  | true => exact (h.nvStore _).yield
  | false => exact ⟨h.outbound, h.store, h.script⟩

theorem fallthroughSave_coopKept (s : State) : CoopKept s (fallthroughSave s) := by
  unfold fallthroughSave
  split
  · have stored : CoopKept s (s.nvStore (settingsRecord s.params s.cfg)) :=
      ⟨rfl, rfl, rfl, rfl⟩
    exact stored.trans (State.yield_coopKept _)
  · exact .refl s

/-- Storing takes nothing from the queue; ticks behind it may (R72). -/
theorem fallthroughSave_popped {s : State} (ok : s.QueueOk) : Popped s (fallthroughSave s) := by
  unfold fallthroughSave
  split
  · have stored : Popped s (s.nvStore (settingsRecord s.params s.cfg)) := .ofTail rfl rfl rfl ok.2
    exact stored.trans (State.yield_popped _ ok)
  · exact .ofTail rfl rfl rfl ok.2

theorem enqueue_silent (seg : Segment) (s : State) : Silent s (enqueue seg s) := by
  have start := Silent.refl s
  cases full : s.yield.queueFull with
  | true =>
    rw [enqueue_full seg full]
    exact start.yield
  | false =>
    rw [enqueue_room seg full]
    exact (start.yield.yield.write (u := State.writeQueue _ _ _)).yield.write

/-- Enqueue writes no parameter and no configuration register (R20). -/
theorem enqueue_frame (seg : Segment) (s : State) :
    (enqueue seg s).params = s.params ∧ (enqueue seg s).cfg = s.cfg ∧
    (enqueue seg s).periodUs = s.periodUs := by
  cases full : s.yield.queueFull with
  | true => simp [enqueue_full seg full]
  | false => simp [enqueue_room seg full]

/-- The live segments behind an Enqueue: the old ones and the new one, unless it is dropped, without
those that ticks have taken (R72, R122, R123). -/
theorem enqueue_liveSegments {s : State} (seg : Segment) (h : s.Inv) :
    ∃ m, (enqueue seg s).liveSegments =
      (s.liveSegments ++ (if s.yield.queueFull then [] else [seg])).drop m := by
  obtain ⟨-, dropped, appended⟩ := enqueueUnderInterleaving s seg h
  cases full : s.yield.queueFull with
  | true =>
    obtain ⟨-, -, live⟩ := dropped full
    exact ⟨0, by simpa using live⟩
  | false =>
    obtain ⟨-, n, live⟩ := appended full
    exact ⟨_, live.trans (by simpa using drop_reply_drop n 0 s.liveSegments [seg])⟩

/-- COOP's registers behind an Enqueue (R122). -/
theorem enqueue_coop {s : State} (seg : Segment) (h : s.Inv) :
    (enqueue seg s).coop =
      if s.yield.queueFull then s.coop
      else
        { s.coop with
          queue := s.coop.queue.set s.coop.qHead seg
          qHead := (s.coop.qHead + 1) % s.params.qSlots } := by
  obtain ⟨-, dropped, appended⟩ := enqueueUnderInterleaving s seg h
  cases full : s.yield.queueFull with
  | true =>
    obtain ⟨-, coop, -⟩ := dropped full
    exact coop
  | false =>
    obtain ⟨coop, -⟩ := appended full
    exact coop

/-- What follows an Enqueue in the handler, up to the ACK. -/
theorem acceptSegment_kept {s : State} {seg : Segment} (h : s.Inv)
    (legal : segmentLegal s.cfg seg) :
    CoopKept (enqueue seg s) (acceptSegment seg s) ∧
    ∃ k, (acceptSegment seg s).liveSegments = (enqueue seg s).liveSegments.drop k := by
  have ok := ((enqueue_handled s seg legal).inv h).queueOk
  have behind := (enqueue seg s).yield_popped ok
  have popped := behind.trans (fallthroughSave_popped (behind.queueOk ok))
  have kept := (enqueue seg s).yield_coopKept.trans (fallthroughSave_coopKept _)
  exact ⟨⟨kept.params, kept.cfg, kept.periodUs, kept.coop⟩, popped.live⟩

/-- Settles O46: Enqueue decides the queue and COOP's registers, the rest of the handler only lets
ticks take segments, and the last store is the handler's or ENV's. -/
theorem storingCommandsUnderInterleaving : Obligations.StoringCommandsUnderInterleaving := by
  intro s
  constructor
  · intro a b code sh dur seg h shape belowStart belowEnd segment
    have run := exec_queueTrajSeg_legal (dur := dur) shape (dutyLegal_iff.mpr belowStart)
      (dutyLegal_iff.mpr belowEnd)
    rw [← segment] at run
    have legal : segmentLegal s.cfg seg := by rw [segment]; exact ⟨belowStart, belowEnd⟩
    obtain ⟨kept, k, taken⟩ := acceptSegment_kept h legal
    obtain ⟨params, cfg, periodUs⟩ := enqueue_frame seg s
    obtain ⟨m, live⟩ := enqueue_liveSegments seg h
    have silent := (enqueue_silent seg s).yield.save (by simpa using params) (by simpa using cfg)
    obtain ⟨n, sent⟩ := silent.ack .queueTrajSeg
    exact ⟨_, n, m + k, run, kept.cfg.trans cfg, kept.periodUs.trans periodUs,
      kept.coop.trans (enqueue_coop seg h), by rw [taken, live, List.drop_drop], sent,
      silent.store⟩
  · have silent := (Silent.refl (saveSettings s)).yield
    obtain ⟨n, sent⟩ := silent.ack .saveSettings
    have kept := (saveSettings s).yield_coopKept
    exact ⟨_, n, rfl, kept.cfg, kept.periodUs, kept.coop, sent, silent.store⟩

end Sys2Proof.Machine
end

section
/-! No step faults, refuses or writes a parameter (R8, R215, R217); and the ticks that the exclusion
window masks (R70, R151, R218). -/

namespace Sys2Proof.Machine

/-! ## Every step goes on, with the same parameters -/

/-- `o` is a next state, never a fault or a refusal (R215, R217), with the parameters of `s` (R8). -/
def GoesOn (s : State) (o : Host.Outcome State Fault Refusal) : Prop :=
  ∃ t, o = .next t ∧ t.params = s.params

theorem HandlerOp.params {s t : State} (op : HandlerOp s t) : t.params = s.params := by
  cases op with
  | between => exact s.yield_params
  | _ => rfl

theorem Handled.params {s t : State} (ops : Handled s t) : t.params = s.params := by
  induction ops with
  | refl => rfl
  | tail _ op ih => exact op.params.trans ih

theorem exec_goesOn (i : Instr) (s : State) : GoesOn s (exec i s) := by
  obtain ⟨t, eq, ops⟩ := exec_handled i s
  exact ⟨t, eq, ops.params⟩

theorem State.receiveLength_params (s : State) : s.receiveLength.params = s.params := by
  simp only [State.receiveLength]
  split <;> rfl

theorem State.takePending_params (s : State) : s.takePending.params = s.params := by
  unfold State.takePending
  split
  · rfl
  · exact State.tickStep_params _ _

theorem State.snapCopyStep_params (s : State) : s.snapCopyStep.params = s.params := by
  unfold State.snapCopyStep
  split <;> exact State.takePending_params _

theorem State.coopStep_goesOn (s : State) : GoesOn s s.coopStep := by
  cases s.coopKind with
  | held eq => exact ⟨_, eq, rfl⟩
  | length eq => exact ⟨_, eq, s.receiveLength_params⟩
  | body i eq => exact eq ▸ exec_goesOn i s.afterBody
  | moves t _ moves eq =>
    obtain ⟨v, -, rfl⟩ := moves
    exact ⟨_, eq, rfl⟩
  | mark c _ eq => exact ⟨_, eq, rfl⟩
  | window eq => exact ⟨_, eq, s.snapCopyStep_params⟩
  | send i _ eq => exact eq ▸ exec_goesOn i (s.setPos (afterSend i))

theorem State.runEvent_goesOn (s : State) (e : Event) : GoesOn s (s.runEvent e) := by
  by_cases he : e = .coop
  · subst he
    exact s.coopStep_goesOn
  · exact ⟨_, s.runEvent_outside e he, (s.outside_coopKept e).params⟩

/-- Settles O23: a step is an event run on a state with the parameters of `s`, and every event goes
on. -/
theorem stepAlwaysGoesOn : Obligations.StepAlwaysGoesOn := by
  intro s
  obtain ⟨sched, time, e, eq⟩ := step_cases s
  rw [eq]
  exact State.runEvent_goesOn { s with sched := sched, ext.timeBase := time } e

/-! ## The end of the exclusion window -/

/-- What COOP itself writes when it leaves the exclusion window, before a pending tick is taken
(R151). -/
def State.leaveWindow (s : State) : State :=
  if s.wrapPending then
    (s.setWrapSeen s.tick.wrapCount).setPos (.send (.telemSnapshot s.tick.ring))
  else s.setPos .syncAvail

theorem State.takePending_some {s : State} {c : U16} (pending : s.tickPending = some c) :
    s.takePending = ({ s with tickPending := none } : State).tickStep c := by
  rw [State.takePending, pending]

/-- A pending tick runs after COOP's writes, and is pending no more (R218). -/
theorem State.snapCopyStep_pending {s : State} {c : U16} (pending : s.tickPending = some c) :
    s.snapCopyStep = (({ s with tickPending := none } : State).leaveWindow).tickStep c := by
  have wraps : ({ s with tickPending := none } : State).wrapPending = s.wrapPending := rfl
  rw [State.snapCopyStep, State.leaveWindow, wraps]
  split <;> exact State.takePending_some pending

/-! ## Ticks that fall due inside the window -/

/-- Inside the exclusion window a tick that falls due waits, and one that waits already keeps its
draw (R70, R218, log 10). -/
theorem State.outside_tick_masked {s : State} (c : U16) (masked : s.windowOpen = true) :
    s.outside (.tick c) = { s with tickPending := some (s.tickPending.getD c) } := by
  simp [State.outside, State.tickDue, masked]

/-- `s` with the tick of draw `c` waiting, and `script` to come. -/
def State.waiting (s : State) (c : U16) (script : List Event) : State :=
  { s with sched.script := script, tickPending := some c }

section

variable {s : State} {c : U16} {rest : List Event}

theorem step_tick_masked (window : s.coop.pos = .snapWindow)
    (script : s.sched.script = .tick c :: rest) :
    step s = .next (s.waiting (s.tickPending.getD c) rest) := by
  have masked : ({ s with sched.script := rest } : State).windowOpen = true := by
    simp [State.windowOpen, window]
  rw [step_scripted s _ rest script, State.runEvent_outside _ (.tick c) nofun,
    State.outside_tick_masked c masked]
  rfl

theorem step_window_pending (window : s.coop.pos = .snapWindow) (pending : s.tickPending = some c)
    (due : s.CoopDue rest) :
    step s = .next
      (({ s with sched.script := rest, tickPending := none } : State).leaveWindow.tickStep c) := by
  have ends : ({ s with sched.script := rest } : State).coopStep =
      .next ({ s with sched.script := rest } : State).snapCopyStep := by
    simp [State.coopStep, window]
  rw [step_coopDue due, ends]
  exact congrArg _ (State.snapCopyStep_pending pending)

/-- Two ticks fall due, then the window ends: the second tick is lost, and the first runs after
COOP's writes (R218). -/
theorem run_window_two_ticks {c' : U16} (window : s.coop.pos = .snapWindow)
    (notPending : s.tickPending = none)
    (script : s.sched.script = [.tick c, .tick c', .coop] ++ rest) :
    Host.Core.run core 3 s =
      .next (({ s with sched.script := rest } : State).leaveWindow.tickStep c) := by
  have first : step s = .next (s.waiting c (.tick c' :: .coop :: rest)) := by
    simpa [notPending] using step_tick_masked window script
  have second : step (s.waiting c (.tick c' :: .coop :: rest)) =
      .next (s.waiting c (.coop :: rest)) := step_tick_masked window rfl
  calc Host.Core.run core 3 s
    _ = Host.Core.run core 2 (s.waiting c (.tick c' :: .coop :: rest)) := run_of_step first
    _ = Host.Core.run core 1 (s.waiting c (.coop :: rest)) := run_of_step second
    _ = .next
        (({ s with sched.script := rest, tickPending := none } : State).leaveWindow.tickStep c) :=
      run_of_step (step_window_pending (s := s.waiting c (.coop :: rest)) window rfl rfl)
    _ = .next (({ s with sched.script := rest } : State).leaveWindow.tickStep c) := by
      rw [← notPending]

end

/-- Settles O54: whatever COOP writes as it leaves the window, the one tick runs on it. -/
theorem windowMasksTick : Obligations.WindowMasksTick := by
  intro s c c' rest window notPending script
  have run := run_window_two_ticks window notPending script
  refine ⟨fun wrapped => ?_, fun seen => ?_⟩
  · have copies : ({ s with sched.script := rest } : State).leaveWindow =
        (({ s with sched.script := rest } : State).setWrapSeen s.tick.wrapCount).setPos
          (.send (.telemSnapshot s.tick.ring)) :=
      if_pos (by simpa [State.wrapPending] using wrapped)
    rw [run, copies]
    rfl
  · have moves : ({ s with sched.script := rest } : State).leaveWindow =
        ({ s with sched.script := rest } : State).setPos .syncAvail :=
      if_neg (by simpa [State.wrapPending] using seen)
    rw [run, moves]
    rfl

end Sys2Proof.Machine
end

section
/-! Zeros bring the receiver back to `AWAIT_LEN`, with ticks anywhere between them (R171, R172,
R257). -/

namespace Sys2Proof.Machine

/-! ## Runs in which ticks fall -/

/-- `t` is `s` but for TICK's registers and the trace, the parts that a tick writes. -/
def TickedFrom (s t : State) : Prop := t = { s with tick := t.tick, ext.trace := t.ext.trace }

theorem TickedFrom.trans {s t u : State} (h : TickedFrom s t) (k : TickedFrom t u) :
    TickedFrom s u := by
  unfold TickedFrom at *
  rw [k, h]

/-- The whole script of `s` leads to `goal` but for what its ticks write. -/
def EndsAs (s goal : State) : Prop :=
  ∃ t, Host.Core.run core s.sched.script.length s = .next t ∧ TickedFrom goal t ∧
    (noTicks s.sched.script = true → t.tick = s.tick ∧ t.ext.trace = s.ext.trace)

/-- A tick that falls due outside the exclusion window is the step (R218). -/
theorem step_tick_unmasked {s : State} {c : U16} {rest : List Event}
    (script : s.sched.script = .tick c :: rest) (unmasked : s.windowOpen = false) :
    step s = .next (({ s with sched.script := rest } : State).tickStep c) := by
  have still : ({ s with sched.script := rest } : State).windowOpen = false := unmasked
  rw [step_scripted s _ rest script, State.runEvent_outside _ (.tick c) nofun,
    State.outside_tick_unmasked c still]

/-- A tick first: the run goes on from what it leaves. -/
theorem EndsAs.tick {s goal goal' : State} {c : U16} {rest : List Event}
    (script : s.sched.script = .tick c :: rest) (unmasked : s.windowOpen = false)
    (later : EndsAs (({ s with sched.script := rest } : State).tickStep c) goal')
    (ticked : TickedFrom goal goal') : EndsAs s goal := by
  obtain ⟨t, run, ends, -⟩ := later
  rw [State.tickStep_sched] at run
  refine ⟨t, ?_, ticked.trans ends, fun noTick => by simp [script, noTicks] at noTick⟩
  rw [script]
  exact (run_of_step (M := core) (step_tick_unmasked script unmasked)).trans run

/-- A COOP step first, one that leaves what ticks write: the run goes on from the next state. -/
theorem EndsAs.coop {s s' goal : State} {rest : List Event} (due : s.CoopDue rest)
    (goes : step s = .next s') (left : s'.sched.script = rest) (tick : s'.tick = s.tick)
    (trace : s'.ext.trace = s.ext.trace) (later : EndsAs s' goal) : EndsAs s goal := by
  obtain ⟨t, run, ends, kept⟩ := later
  rw [left] at run kept
  rw [tick, trace] at kept
  refine ⟨t, ?_, ends, fun noTick => kept (by simpa [due, noTicks] using noTick)⟩
  rw [due]
  exact (run_of_step (M := core) goes).trans run

/-! ## Zeros in AWAIT_LEN (R171) -/

/-- At the top of a pass in `AWAIT_LEN`, as many zeros as COOP steps are discarded. -/
theorem endsAs_zeros_discarded (script : List Event) (s : State)
    (scripted : s.sched.script = script) (inputs : noInputs script = true) (pos : s.coop.pos = .passStart)
    (await : s.coop.pstate = .awaitLen)
    (zeros : s.ext.inbound = List.replicate (script.count .coop) 0) :
    EndsAs s { s with ext.inbound := [], sched.script := [] } := by
  induction script generalizing s with
  | nil =>
    have done : s = { s with ext.inbound := [], sched.script := [] } := by
      rw [← show s.ext.inbound = [] from zeros, ← scripted]
    exact ⟨s, by rw [scripted]; rfl, by rw [← done]; rfl, fun _ => ⟨rfl, rfl⟩⟩
  | cons e rest ih =>
    cases e with
    | tick c =>
      refine .tick scripted (by simp [State.windowOpen, pos])
        (ih (({ s with sched.script := rest } : State).tickStep c) (by simp) inputs (by simpa)
          (by simpa) (by simpa using zeros)) ?_
      rw [TickedFrom, State.tickStep_frame]
    | coop =>
      rw [List.count_cons_self, List.replicate_succ] at zeros
      have discards := lengthByteReceived s rest 0 _ scripted pos await zeros
      rw [if_neg (by simp)] at discards
      exact .coop scripted discards rfl rfl rfl (ih _ rfl inputs pos await rfl)
    | host | hostRead | time | envStore => cases inputs

/-! ## Zeros in AWAIT_BODY (R172, R193) -/

theorem checksum8_replicate_zero (n : Nat) : checksum8 (List.replicate n 0) = 0 := by
  simp [checksum8_eq_sum]

/-- A body of zeros: it passes its checksum, and its opcode 0 is unassigned (R88, R193). -/
theorem step_zeroBody {s : State} {rest : List Event} {n : Nat} (due : s.CoopDue rest)
    (pos : s.coop.pos = .passStart) (body : s.coop.pstate = .awaitBody)
    (zeros : s.ext.inbound = List.replicate n 0) (complete : s.coop.plen.toNat + 1 ≤ n) :
    step s =
      .next
        { s with
          sched.script := rest
          coop.pstate := .awaitLen
          ext.inbound := List.replicate (n - (s.coop.plen.toNat + 1)) 0
          ext.outbound := s.ext.outbound ++ [0x03, 0xA1, 0x00, 0x03, 0xA4] } := by
  have bytes : s.bodyBytes = List.replicate s.coop.plen.toNat 0 := by
    rw [State.bodyBytes, zeros, List.take_replicate, Nat.min_eq_left (by omega)]
  have check : s.bodyChecksum = 0 := by
    rw [State.bodyChecksum, zeros, List.getD_replicate _ (by omega)]
  have opcode : s.bodyBytes.headD 0 = 0 := by
    rw [bytes]
    cases s.coop.plen.toNat <;> rfl
  have reply := unknownOpcodeReply s rest due pos body (by simpa [zeros] using complete)
    (by rw [check, bytes, checksum8_replicate_zero]) (by rw [opcode]; decide)
  rw [reply, opcode, zeros, List.drop_replicate]
  rfl

/-- At the top of a pass with a body of zeros received, and with them the zeros that the other COOP
steps discard: one UnknownCommand error for opcode 0 is sent. -/
theorem endsAs_zeros_completed (script : List Event) (s : State)
    (scripted : s.sched.script = script) (inputs : noInputs script = true) (pos : s.coop.pos = .passStart)
    (body : s.coop.pstate = .awaitBody) (n : Nat) (zeros : s.ext.inbound = List.replicate n 0)
    (complete : s.coop.plen.toNat + 1 ≤ n) (steps : script.count .coop = n - s.coop.plen.toNat) :
    EndsAs s
      { s with
        coop.pstate := .awaitLen
        ext.inbound := []
        ext.outbound := s.ext.outbound ++ [0x03, 0xA1, 0x00, 0x03, 0xA4]
        sched.script := [] } := by
  induction script generalizing s with
  | nil =>
    rw [List.count_nil] at steps
    omega
  | cons e rest ih =>
    cases e with
    | tick c =>
      refine .tick scripted (by simp [State.windowOpen, pos])
        (ih (({ s with sched.script := rest } : State).tickStep c) (by simp) inputs (by simpa)
          (by simpa) (by simpa) (by simpa) (by simpa using steps)) ?_
      rw [TickedFrom, State.tickStep_frame]
    | coop =>
      rw [List.count_cons_self] at steps
      have left : rest.count .coop = n - (s.coop.plen.toNat + 1) := by omega
      exact .coop scripted (step_zeroBody scripted pos body zeros complete) rfl rfl rfl
        (endsAs_zeros_discarded rest _ rfl inputs pos rfl (by rw [left]))
    | host | hostRead | time | envStore => cases inputs

/-- Settles O19: in `AWAIT_LEN` every zero is discarded; in `AWAIT_BODY` COOP's first step completes
a body of zeros, and the zeros behind it are met in `AWAIT_LEN`. -/
theorem zerosRecoverFraming : Obligations.ZerosRecoverFraming := by
  intro s pos inputs
  refine ⟨fun await zeros => endsAs_zeros_discarded _ s rfl inputs pos await zeros,
    fun body valid zeros steps => ?_⟩
  have bound := lengthValid_iff.mp valid
  exact endsAs_zeros_completed _ s rfl inputs pos body _ zeros (by omega) steps

end Sys2Proof.Machine
end

section
/-! A command handler in which ticks may fall but no input does: COOP stays at the top of a pass in
`AWAIT_LEN`, consumes nothing more and sends at most one response (R172, R194, R257). -/

namespace Sys2Proof.Machine

/-! ## The receiver through a handler -/

/-- COOP is at the top of a pass in `AWAIT_LEN`, with `bytes` inbound and no input to come. -/
structure State.Listening (s : State) (bytes : List Byte) : Prop where
  pos : s.coop.pos = .passStart
  pstate : s.coop.pstate = .awaitLen
  inbound : s.ext.inbound = bytes
  inputs : noInputs s.sched.script = true

theorem HandlerOp.listening {s t : State} {bytes : List Byte} (op : HandlerOp s t)
    (h : s.Listening bytes) : t.Listening bytes := by
  obtain ⟨pos, pstate, inbound, inputs⟩ := h
  cases op with
  | between =>
    obtain ⟨ext, left⟩ := s.yield_noInputs inputs
    exact ⟨by simpa, by simpa, by rwa [ext], left⟩
  | deviceReset => exact ⟨rfl, rfl, inbound, inputs⟩
  | _ => exact ⟨pos, pstate, inbound, inputs⟩

theorem Handled.listening {s t : State} {bytes : List Byte} (ops : Handled s t)
    (h : s.Listening bytes) : t.Listening bytes := by
  induction ops with
  | refl => exact h
  | tail _ op ih => exact op.listening ih

/-! ## What a handler sends -/

/-- From `s` to `t` the block sends `bytes`, HOST reads none, and no input is to come. -/
structure Says (s t : State) (bytes : List Byte) : Prop where
  params : t.params = s.params
  outbound : t.ext.outbound = s.ext.outbound ++ bytes
  inputs : noInputs t.sched.script = true

theorem Says.start {s : State} (inputs : noInputs s.sched.script = true) : Says s s [] :=
  ⟨rfl, (List.append_nil _).symm, inputs⟩

section

variable {s t : State} {bytes : List Byte} (h : Says s t bytes)
include h

/-- What falls between two COOP steps, ticks only, sends nothing. -/
theorem Says.yield : Says s t.yield bytes := by
  obtain ⟨ext, left⟩ := t.yield_noInputs h.inputs
  exact ⟨t.yield_params.trans h.params, by rw [ext]; exact h.outbound, left⟩

/-- Writing registers, calling a PWM primitive, storing, or resetting sends nothing. -/
theorem Says.write {u : State} (params : u.params = t.params := by rfl)
    (outbound : u.ext.outbound = t.ext.outbound := by rfl)
    (script : u.sched.script = t.sched.script := by rfl) : Says s u bytes :=
  ⟨params.trans h.params, outbound.trans h.outbound, by rw [script]; exact h.inputs⟩

theorem Says.publish (d : U16) : Says s (publishDuty d t) bytes :=
  (h.write (u := t.setDutyCmd d)).yield.write

theorem Says.enqueue (seg : Segment) : Says s (enqueue seg t) bytes := by
  cases full : t.yield.queueFull with
  | true =>
    rw [enqueue_full seg full]
    exact h.yield
  | false =>
    rw [enqueue_room seg full]
    exact (h.yield.yield.write (u := State.writeQueue _ _ _)).yield.write

theorem Says.fallthroughSave : Says s (fallthroughSave t) bytes := by
  unfold Machine.fallthroughSave
  split
  · exact (h.write (u := t.nvStore _)).yield
  · exact h

end

/-- A response is sent where nothing has been sent before. -/
theorem Says.respond {s t : State} (h : Says s t []) (r : Instr) :
    Says s (t.sendFrame r) (encode s.params r) :=
  ⟨h.params, by simp [h.outbound, h.params], h.inputs⟩

/-- From `s` to `t` the block sends nothing, or one response (R194). -/
def RepliesAtMostOnce (s t : State) : Prop :=
  Says s t [] ∨ ∃ r, isResponse r = true ∧ Says s t (encode s.params r)

theorem Says.replied {s t : State} (h : Says s t []) (r : Instr) (response : isResponse r = true) :
    RepliesAtMostOnce s (t.sendFrame r) := .inr ⟨r, response, h.respond r⟩

theorem Says.acked {s t : State} (h : Says s t []) (o : Opcode) : RepliesAtMostOnce s (t.ack o) :=
  h.replied _ rfl

theorem Says.raised {s t : State} (h : Says s t []) (e : CommandError) (op : Byte) :
    RepliesAtMostOnce s (t.raise e op) := h.replied _ rfl

/-! ## Every command, and every response -/

section

variable {s : State} (start : Says s s [])
include start

theorem checkedDuty_replies {accepted : State} (o : Opcode) (d : U16)
    (h : RepliesAtMostOnce s accepted) : RepliesAtMostOnce s (checkedDuty o d accepted s) := by
  unfold checkedDuty
  split
  · exact h
  · exact start.raised _ _

theorem execSetPwmFreq_replies (f : U32) :
    ∃ t, execSetPwmFreq f s = .next t ∧ RepliesAtMostOnce s t := by
  refine ⟨_, rfl, ?_⟩
  split
  · exact ((start.write (u := s.setPwmFreq f)).yield.write
      (u := State.pwmConfigure _ _ _ _)).yield.acked _
  · exact start.raised _ _

theorem execQueueTrajSeg_replies (a b : U16) (shape : Byte) (dur : Option U32) :
    ∃ t, execQueueTrajSeg a b shape dur s = .next t ∧ RepliesAtMostOnce s t := by
  refine ⟨_, rfl, ?_⟩
  split
  · exact start.raised _ _
  · split
    · exact (start.enqueue _).yield.fallthroughSave.acked _
    · exact start.raised _ _

/-- A handler has one `Send` at most (R194), and a reset command's comes before the reset (R245). -/
theorem exec_replies (i : Instr)
    (answers : i.direction = .hostToDevice ∨ isResponse i = true) :
    ∃ t, exec i s = .next t ∧ RepliesAtMostOnce s t := by
  cases i with
  | ping => exact ⟨_, rfl, start.acked _⟩
  | getStatus => exact ⟨_, rfl, start.replied _ rfl⟩
  | getDuty => exact ⟨_, rfl, start.yield.replied _ rfl⟩
  | setOutputPin pin =>
    exact ⟨_, rfl, ((start.write (u := s.setOutPin pin)).yield.write
      (u := State.pwmConfigure _ _ _ _)).yield.acked _⟩
  | setSensePin pin => exact ⟨_, rfl, (start.write (u := s.setSensePin pin)).yield.acked _⟩
  | setPwmFreq f => exact execSetPwmFreq_replies start f
  | setDuty d =>
    exact ⟨_, rfl, checkedDuty_replies start _ d ((start.publish d).yield.acked _)⟩
  | setDutyNoack d => exact ⟨_, rfl, checkedDuty_replies start _ d (.inl (start.publish d))⟩
  | setDutyFast d => exact ⟨_, rfl, checkedDuty_replies start _ d (.inl (start.publish d))⟩
  | stopOutput =>
    exact ⟨_, rfl,
      ((start.write (u := s.setAutomation false)).yield.publish 0).yield.acked _⟩
  | startStream =>
    exact ⟨_, rfl, ((start.write (u := s.setWrapSeen s.tick.wrapCount)).yield.write
      (u := State.setStreaming _ true)).yield.acked _⟩
  | stopStream => exact ⟨_, rfl, (start.write (u := s.setStreaming false)).yield.acked _⟩
  | startAutomation =>
    exact ⟨_, rfl, ((start.write (u := s.setAutomation true)).yield.write
      (u := State.bumpAutoGen _)).yield.acked _⟩
  | stopAutomation => exact ⟨_, rfl, (start.write (u := s.setAutomation false)).yield.acked _⟩
  | queueTrajSeg a b shape dur => exact execQueueTrajSeg_replies start a b shape dur
  | saveSettings => exact ⟨_, rfl, (start.write (u := saveSettings s)).yield.acked _⟩
  | softReset =>
    exact ⟨_, rfl, .inr ⟨.respAck _, rfl, (start.respond _).yield.write⟩⟩
  | saveAndReset =>
    have stored := (start.write (u := saveSettings s)).yield
    exact ⟨_, rfl, .inr ⟨.respAck _, rfl, (stored.respond _).yield.write⟩⟩
  | respAck | respError | respStatus | respDuty => exact ⟨_, rfl, start.replied _ rfl⟩
  | telemSnapshot | telemTimesync => rcases answers with command | response <;> contradiction

end

/-- A listening receiver still listens, to the same bytes, when a handler that replies at most once
has run. -/
theorem State.Listening.after_exec {s : State} {bytes : List Byte} (h : s.Listening bytes)
    (i : Instr) (answers : i.direction = .hostToDevice ∨ isResponse i = true) :
    ∃ t, exec i s = .next t ∧ t.Listening bytes ∧ RepliesAtMostOnce s t := by
  obtain ⟨t, run, ops⟩ := exec_handled i s
  obtain ⟨u, run', replies⟩ := exec_replies (.start h.inputs) i answers
  obtain rfl : t = u := by simpa [run] using run'
  exact ⟨t, run, ops.listening h, replies⟩

/-! ## A received body (R172 to R174) -/

/-- A received body runs a command, or the error response of its refusal. -/
theorem State.bodyInstr_command_or_response (s : State) :
    s.bodyInstr.direction = .hostToDevice ∨ isResponse s.bodyInstr = true := by
  unfold State.bodyInstr
  split
  · next i decoded =>
    obtain ⟨-, command⟩ := decodeBody_eq_ok.mp decoded
    obtain ⟨o, -, operands⟩ := decodeCommand_eq_ok.mp command
    obtain ⟨direction, -⟩ := decodeOperands_some operands
    exact .inl direction
  · next e _ => exact .inr (by cases e <;> rfl)

/-- What is left of `stale ++ zeros` behind a body and a checksum that take in all of `stale`. -/
theorem drop_stale_zeros {stale : List Byte} {k : Nat} (m : Nat) (short : stale.length ≤ k) :
    (stale ++ List.replicate m 0).drop (k + 1) =
      List.replicate (stale.length + m - (k + 1)) 0 := by
  rw [List.drop_append, List.drop_eq_nil_of_le (by omega), List.nil_append, List.drop_replicate]
  congr 1
  omega

/-- Settles O20: the step runs what the body decodes to or its refusal, a handler that sends at most
one response and stays, or is reset to, the top of a pass in `AWAIT_LEN`. -/
theorem zerosCompleteStaleFrame : Obligations.ZerosCompleteStaleFrame := by
  intro s rest stale due inputs pos body valid short received
  have bound := lengthValid_iff.mp valid
  have complete : s.coop.plen.toNat + 1 ≤ s.ext.inbound.length := by
    rw [received, List.length_append, List.length_replicate]
    omega
  have listening : ({ s with sched.script := rest } : State).afterBody.Listening
      (List.replicate (stale.length + (s.params.maxFrame - 1) - (s.coop.plen.toNat + 1)) 0) :=
    ⟨pos, rfl, (congrArg _ received).trans (drop_stale_zeros _ short), inputs⟩
  obtain ⟨t, run, listens, replies⟩ := listening.after_exec _ s.bodyInstr_command_or_response
  refine ⟨t, (step_completeBody due pos body complete).trans run, listens.pos, listens.pstate,
    listens.inbound, ?_⟩
  rcases replies with silent | ⟨r, response, said⟩
  · exact .inl (silent.outbound.trans (List.append_nil _))
  · exact .inr ⟨r, response, said.outbound⟩

end Sys2Proof.Machine
end

section
/-! Two duty commands between two ticks (R181, R252). -/

namespace Sys2Proof.Machine

/-- A legal SET_DUTY with nothing falling inside it publishes the duty and acknowledges it (R181). -/
theorem setDuty_quiet {s t : State} {d : U16} (run : exec (.setDuty d) s = .next t)
    (quiet : s.Quiet) (legal : dutyLegal s.cfg d = true) :
    t = ((s.setDutyCmd d).bumpDutyGen).ack .setDuty := by
  obtain ⟨acked, -⟩ := dutyCommandsExactly s d quiet (dutyLegal_iff.mp legal)
  rw [acked, Host.Outcome.next.injEq] at run
  exact run.symm

/-- Two SET_DUTY in a row leave the second duty published, two generations on; they touch nothing
else that a tick reads or writes (R68, R181). -/
theorem setDuty_setDuty_quiet {s t u : State} {d e : U16} (quiet : s.Quiet)
    (legalD : dutyLegal s.cfg d = true) (legalE : dutyLegal s.cfg e = true)
    (runD : exec (.setDuty d) s = .next t) (runE : exec (.setDuty e) t = .next u) :
    u.coop = { s.coop with dutyCmd := e, dutyGen := s.coop.dutyGen + 1 + 1 } ∧
    u.tick = s.tick ∧ u.cfg = s.cfg ∧ u.ext.trace = s.ext.trace := by
  obtain rfl := setDuty_quiet runD quiet legalD
  obtain rfl := setDuty_quiet runE quiet legalE
  exact ⟨rfl, rfl, rfl, rfl⟩

/-- Settles O58: the tick finds a generation it has not seen, and with it the second duty, which has
overwritten the first. -/
theorem dutyCommandsFold : Obligations.DutyCommandsFold := by
  intro s t u d e c quiet disabled legalD legalE seen runD runE
  obtain ⟨coop, tick, cfg, trace⟩ := setDuty_setDuty_quiet quiet legalD legalE runD runE
  have pending : u.dutyPending = true := by
    simp [State.dutyPending, coop, tick, ← seen, BitVec.add_assoc]
  have outputs : (u.tickStep c).tick.dutyOut = e := by
    obtain ⟨out, -⟩ := State.tickStep_manual (s := u) c (by rw [coop]; exact disabled)
    rw [out, if_pos pending, coop]
  obtain ⟨drives, samples, -⟩ := tickDrivesAndSamples u c
  exact ⟨outputs, by rw [drives, outputs, trace, cfg], by rw [samples, outputs, tick, cfg]⟩

end Sys2Proof.Machine
end
